-- ==== Sys2Proof/Word.lean ====
section
/-! DEFINITION. The words of the lyft_mk2 CORE (00_scope.md R10, R11): every value is unsigned, bits
are numbered from 0 at the least significant bit. -/

namespace Sys2Proof

/-- A byte: one data symbol of the transmit line, one received byte, one payload byte. -/
abbrev Byte := BitVec 8

/-- A 16-bit position or limit (R33, R38, R39). -/
abbrev Pos := BitVec 16

/-- A LIN frame address, 6 bits, 0..63 (R61). -/
abbrev LinAddr := BitVec 6

/-- The host command word `CMD` (R80). -/
abbrev CmdWord := BitVec 32

/-- The host response word `RESP` (R81). -/
abbrev RespWord := BitVec 32

/-- The event word `EVT` (R85). -/
abbrev EvtWord := BitVec 16

end Sys2Proof
end

