-- ==== Sys2Proof/Syntax.lean ====
section
/-! DEFINITION. The inputs of the block as syntax: one constructor for each row of
spec/opcode_table.json (host commands 30_encoding.md R83, R84; events R85; transport micro-operations
R86). A constructor holds the operands its row names; the bits a row ignores are no operand (R80, R85). -/

namespace Sys2Proof

inductive Instr where
  /-- INIT(enabled), R252: `enabled = CMD[0]`. -/
  | init (enabled : Bool)
  /-- START_DISCOVERY, R251. -/
  | startDiscovery
  /-- GET_BUSY, R253. -/
  | getBusy
  /-- GET_MODE, R254. -/
  | getMode
  /-- GET_DRIFT, R255. -/
  | getDrift
  /-- GET_POSITION, R256. -/
  | getPosition
  /-- GET_LOWER_LIMIT, R257. -/
  | getLowerLimit
  /-- GET_UPPER_LIMIT, R258. -/
  | getUpperLimit
  /-- GET_MOTOR_STATE(u), R265: `u = CMD[23:16]`. -/
  | getMotorState (unit : BitVec 8)
  /-- GET_MOTOR_POSITION(u), R266. -/
  | getMotorPosition (unit : BitVec 8)
  /-- GET_MOTOR_LOWER_LIMIT(u), R267. -/
  | getMotorLowerLimit (unit : BitVec 8)
  /-- GET_MOTOR_UPPER_LIMIT(u), R268. -/
  | getMotorUpperLimit (unit : BitVec 8)
  /-- GET_MOTOR_ADDRESS(u), R269. -/
  | getMotorAddress (unit : BitVec 8)
  /-- GET_MOTOR_CAPABILITY(u), R270. -/
  | getMotorCapability (unit : BitVec 8)
  /-- REQUEST_POSITION(target), R260: `t = CMD[15:0]`. -/
  | requestPosition (target : BitVec 16)
  /-- REQUEST_CALIBRATION, R263. -/
  | requestCalibration
  /-- REQUEST_HALT, R264. -/
  | requestHalt
  /-- RESERVED_OPCODE 0x00, R271. -/
  | reservedOpcode00
  /-- RESERVED_OPCODE 0x0F, R271. -/
  | reservedOpcode0F
  /-- RESERVED_OPCODE 0x13, R271. -/
  | reservedOpcode13
  /-- RESERVED_OPCODE 0x14..0x17, R271: the opcode's low 2 bits. -/
  | reservedOpcode14 (low : BitVec 2)
  /-- RESERVED_OPCODE 0x18..0x1F, R271: the opcode's low 3 bits. -/
  | reservedOpcode18 (low : BitVec 3)
  /-- RESERVED_OPCODE 0x20..0x3F, R271: the opcode's low 5 bits. -/
  | reservedOpcode20 (low : BitVec 5)
  /-- RESERVED_OPCODE 0x40..0x7F, R271: the opcode's low 6 bits. -/
  | reservedOpcode40 (low : BitVec 6)
  /-- RESERVED_OPCODE 0x80..0xFF, R271: the opcode's low 7 bits. -/
  | reservedOpcode80 (low : BitVec 7)
  /-- TICK, R160. -/
  | tick
  /-- TX_DONE, R128. -/
  | txDone
  /-- RX_BYTE(b), R129: `b = EVT[7:0]`. -/
  | rxByte (b : BitVec 8)
  /-- RESET, R320. -/
  | reset
  /-- RESERVED_EVENT kind 0x0, R85. -/
  | reservedEvent0
  /-- RESERVED_EVENT kinds 0x4..0x7, R85: the kind's low 2 bits. -/
  | reservedEvent4 (low : BitVec 2)
  /-- RESERVED_EVENT kinds 0x8..0xB, R85: the kind's low 2 bits. -/
  | reservedEvent8 (low : BitVec 2)
  /-- RESERVED_EVENT kinds 0xC..0xD, R85: the kind's low bit. -/
  | reservedEventC (low : BitVec 1)
  /-- RESERVED_EVENT kind 0xE, R85. -/
  | reservedEventE
  /-- T_WRITE a, [p0, …], R125. -/
  | tWrite (addr : LinAddr) (payload : List Byte)
  /-- T_READ a, R126. -/
  | tRead (addr : LinAddr)
  /-- T_GETRX, R127. -/
  | tGetRx
  deriving DecidableEq, Repr

/-- One input as it reaches the block. In hardware the host command port and the event strobes are
separate (R80, R85); a micro-operation stands on a trace line only (R86): its 8-bit code, and the operands
`a, [p0, …]` as the line writes them. -/
inductive Input where
  /-- A 32-bit word on the host command port (R80). -/
  | cmd (w : CmdWord)
  /-- A 16-bit event word (R85). -/
  | evt (w : EvtWord)
  /-- A micro-operation trace record (R86; log entry 4). -/
  | uop (code : BitVec 8) (addr : LinAddr) (payload : List Byte)
  deriving DecidableEq, Repr

end Sys2Proof
end

