-- ==== Sys2Proof/WellFormed.lean ====
section
/-! DEFINITION. Which instruction terms are well formed: the operand ranges of spec/opcode_table.json
that the constructors' types do not already say. -/

namespace Sys2Proof

/-- T_WRITE's payload is a "list of 0..8 bytes" (the table's row; R23, R125). A longer one is not a term
of the trace language; its meaning refuses it (WriteTooLong). Every other operand's range is its type. -/
def Instr.wellFormed : Instr → Bool
  | .tWrite _ payload => payload.length ≤ 8
  | _ => true

end Sys2Proof
end

