-- ==== Sys2Proof/Decode.lean ====
section
/-! DEFINITION. Decoding of host command words (30_encoding.md R80, R83, R84), event words (R85) and
micro-operation records (R86), total on every input; the encoder, written from the same tables; the rows of
spec/opcode_table.json as data; and the host's entry point `decodeTableWord`. -/

namespace Sys2Proof

/-- Why an input has no instruction. -/
inductive DecodeError where
  /-- A micro-operation record with a code that is none of 0x01, 0x02, 0x03 (R86; log entry 14). -/
  | unknownMicroOp (code : BitVec 8)
  deriving DecidableEq, Repr

/-! ## Fields -/

/-- `CMD[31:24]` (R80). -/
def cmdOpcode (w : CmdWord) : BitVec 8 := w.extractLsb' 24 8

/-- `CMD[23:16]` (R80). -/
def cmdUnit (w : CmdWord) : BitVec 8 := w.extractLsb' 16 8

/-- `CMD[15:0]` (R80). -/
def cmdData (w : CmdWord) : BitVec 16 := w.extractLsb' 0 16

/-- `opcode << 24 | unit << 16 | data` (R80, R101). -/
def cmdWord (opcode unit : BitVec 8) (data : BitVec 16) : CmdWord := opcode ++ unit ++ data

/-- `EVT[15:12]` (R85). -/
def evtKind (w : EvtWord) : BitVec 4 := w.extractLsb' 12 4

/-- `EVT[7:0]` (R85). -/
def evtData (w : EvtWord) : BitVec 8 := w.extractLsb' 0 8

/-- An event word with `EVT[11:8] = 0` (R85, R102). -/
def evtWord (kind : BitVec 4) (data : BitVec 8) : EvtWord := kind ++ (0 : BitVec 4) ++ data

/-! ## Decoding -/

/-- The opcode map (R83) and the reserved opcodes 0x00, 0x0F, 0x13..0xFF (R84). -/
def decodeOpcode (opcode unit : BitVec 8) (data : BitVec 16) : Instr :=
  match opcode.toNat with
  | 0x00 => .reservedOpcode00
  | 0x01 => .init (data.getLsbD 0)
  | 0x02 => .startDiscovery
  | 0x03 => .getBusy
  | 0x04 => .getMode
  | 0x05 => .getDrift
  | 0x06 => .getPosition
  | 0x07 => .getLowerLimit
  | 0x08 => .getUpperLimit
  | 0x09 => .getMotorState unit
  | 0x0A => .getMotorPosition unit
  | 0x0B => .getMotorLowerLimit unit
  | 0x0C => .getMotorUpperLimit unit
  | 0x0D => .getMotorAddress unit
  | 0x0E => .getMotorCapability unit
  | 0x0F => .reservedOpcode0F
  | 0x10 => .requestPosition data
  | 0x11 => .requestCalibration
  | 0x12 => .requestHalt
  | 0x13 => .reservedOpcode13
  | _ =>
    if opcode < 0x18#8 then .reservedOpcode14 (opcode.setWidth 2)
    else if opcode < 0x20#8 then .reservedOpcode18 (opcode.setWidth 3)
    else if opcode < 0x40#8 then .reservedOpcode20 (opcode.setWidth 5)
    else if opcode < 0x80#8 then .reservedOpcode40 (opcode.setWidth 6)
    else .reservedOpcode80 (opcode.setWidth 7)

/-- A host command word (R80): every word has a meaning. -/
def decodeCmd (w : CmdWord) : Instr := decodeOpcode (cmdOpcode w) (cmdUnit w) (cmdData w)

/-- The event kinds (R85); `EVT[11:8]` is ignored, and `EVT[7:0]` outside RX_BYTE. -/
def decodeKind (kind : BitVec 4) (data : BitVec 8) : Instr :=
  match kind.toNat with
  | 0x0 => .reservedEvent0
  | 0x1 => .tick
  | 0x2 => .txDone
  | 0x3 => .rxByte data
  | 0xE => .reservedEventE
  | 0xF => .reset
  | _ =>
    if kind < 0x8#4 then .reservedEvent4 (kind.setWidth 2)
    else if kind < 0xC#4 then .reservedEvent8 (kind.setWidth 2)
    else .reservedEventC (kind.setWidth 1)

/-- An event word (R85): every word decodes, the reserved kinds to a reserved event. -/
def decodeEvt (w : EvtWord) : Instr := decodeKind (evtKind w) (evtData w)

/-- A micro-operation record (R86). -/
def decodeUop (code : BitVec 8) (addr : LinAddr) (payload : List Byte) : Except DecodeError Instr :=
  match code.toNat with
  | 0x01 => .ok (.tWrite addr payload)
  | 0x02 => .ok (.tRead addr)
  | 0x03 => .ok .tGetRx
  | _ => .error (.unknownMicroOp code)

/-- The instruction an input stands for. -/
def decode : Input → Except DecodeError Instr
  | .cmd w => .ok (decodeCmd w)
  | .evt w => .ok (decodeEvt w)
  | .uop code addr payload => decodeUop code addr payload

/-! ## Encoding -/

/-- A command with no operand. -/
def plainCmd (opcode : BitVec 8) : Input := .cmd (cmdWord opcode 0 0)

/-- A GET_MOTOR_* command. -/
def unitCmd (opcode unit : BitVec 8) : Input := .cmd (cmdWord opcode unit 0)

/-- An event word with `EVT[7:0] = 0`. -/
def plainEvt (kind : BitVec 4) : Input := .evt (evtWord kind 0)

/-- The words of an instruction (R80, R83, R85, R86), the bits its row ignores at 0. -/
def encode : Instr → Input
  | .init enabled => .cmd (cmdWord 0x01 0 (if enabled then 1 else 0))
  | .startDiscovery => plainCmd 0x02
  | .getBusy => plainCmd 0x03
  | .getMode => plainCmd 0x04
  | .getDrift => plainCmd 0x05
  | .getPosition => plainCmd 0x06
  | .getLowerLimit => plainCmd 0x07
  | .getUpperLimit => plainCmd 0x08
  | .getMotorState unit => unitCmd 0x09 unit
  | .getMotorPosition unit => unitCmd 0x0A unit
  | .getMotorLowerLimit unit => unitCmd 0x0B unit
  | .getMotorUpperLimit unit => unitCmd 0x0C unit
  | .getMotorAddress unit => unitCmd 0x0D unit
  | .getMotorCapability unit => unitCmd 0x0E unit
  | .requestPosition target => .cmd (cmdWord 0x10 0 target)
  | .requestCalibration => plainCmd 0x11
  | .requestHalt => plainCmd 0x12
  | .reservedOpcode00 => plainCmd 0x00
  | .reservedOpcode0F => plainCmd 0x0F
  | .reservedOpcode13 => plainCmd 0x13
  | .reservedOpcode14 low => plainCmd (0x05#6 ++ low)
  | .reservedOpcode18 low => plainCmd (0x03#5 ++ low)
  | .reservedOpcode20 low => plainCmd (0x1#3 ++ low)
  | .reservedOpcode40 low => plainCmd (0x1#2 ++ low)
  | .reservedOpcode80 low => plainCmd (0x1#1 ++ low)
  | .tick => plainEvt 0x1
  | .txDone => plainEvt 0x2
  | .rxByte b => .evt (evtWord 0x3 b)
  | .reset => plainEvt 0xF
  | .reservedEvent0 => plainEvt 0x0
  | .reservedEvent4 low => plainEvt (0x1#2 ++ low)
  | .reservedEvent8 low => plainEvt (0x2#2 ++ low)
  | .reservedEventC low => plainEvt (0x6#3 ++ low)
  | .reservedEventE => plainEvt 0xE
  | .tWrite addr payload => .uop 0x01 addr payload
  | .tRead addr => .uop 0x02 addr []
  | .tGetRx => .uop 0x03 0 []

/-! ## The opcode table -/

/-- The port of a table row: its "format" (CMD32, EVT16 or UOP8). -/
inductive Port where
  | cmd32 | evt16 | uop8
  deriving DecidableEq, Repr

/-- A row of spec/opcode_table.json: its mnemonic, its format, and the match and mask of its word. -/
structure TableRow where
  mnemonic : String
  port : Port
  pattern : Nat
  mask : Nat
  deriving DecidableEq, Repr

/-- A command row with a whole opcode. -/
def commandRow (mnemonic : String) (opcode : Nat) : TableRow :=
  ⟨mnemonic, .cmd32, opcode * 0x1000000, 0xFF000000⟩

/-- The row of spec/opcode_table.json an instruction belongs to. -/
def Instr.row : Instr → TableRow
  | .init _ => commandRow "INIT" 0x01
  | .startDiscovery => commandRow "START_DISCOVERY" 0x02
  | .getBusy => commandRow "GET_BUSY" 0x03
  | .getMode => commandRow "GET_MODE" 0x04
  | .getDrift => commandRow "GET_DRIFT" 0x05
  | .getPosition => commandRow "GET_POSITION" 0x06
  | .getLowerLimit => commandRow "GET_LOWER_LIMIT" 0x07
  | .getUpperLimit => commandRow "GET_UPPER_LIMIT" 0x08
  | .getMotorState _ => commandRow "GET_MOTOR_STATE" 0x09
  | .getMotorPosition _ => commandRow "GET_MOTOR_POSITION" 0x0A
  | .getMotorLowerLimit _ => commandRow "GET_MOTOR_LOWER_LIMIT" 0x0B
  | .getMotorUpperLimit _ => commandRow "GET_MOTOR_UPPER_LIMIT" 0x0C
  | .getMotorAddress _ => commandRow "GET_MOTOR_ADDRESS" 0x0D
  | .getMotorCapability _ => commandRow "GET_MOTOR_CAPABILITY" 0x0E
  | .requestPosition _ => commandRow "REQUEST_POSITION" 0x10
  | .requestCalibration => commandRow "REQUEST_CALIBRATION" 0x11
  | .requestHalt => commandRow "REQUEST_HALT" 0x12
  | .reservedOpcode00 => ⟨"RESERVED_OPCODE", .cmd32, 0x00000000, 0xFF000000⟩
  | .reservedOpcode0F => ⟨"RESERVED_OPCODE", .cmd32, 0x0F000000, 0xFF000000⟩
  | .reservedOpcode13 => ⟨"RESERVED_OPCODE", .cmd32, 0x13000000, 0xFF000000⟩
  | .reservedOpcode14 _ => ⟨"RESERVED_OPCODE", .cmd32, 0x14000000, 0xFC000000⟩
  | .reservedOpcode18 _ => ⟨"RESERVED_OPCODE", .cmd32, 0x18000000, 0xF8000000⟩
  | .reservedOpcode20 _ => ⟨"RESERVED_OPCODE", .cmd32, 0x20000000, 0xE0000000⟩
  | .reservedOpcode40 _ => ⟨"RESERVED_OPCODE", .cmd32, 0x40000000, 0xC0000000⟩
  | .reservedOpcode80 _ => ⟨"RESERVED_OPCODE", .cmd32, 0x80000000, 0x80000000⟩
  | .tick => ⟨"TICK", .evt16, 0x1000, 0xF000⟩
  | .txDone => ⟨"TX_DONE", .evt16, 0x2000, 0xF000⟩
  | .rxByte _ => ⟨"RX_BYTE", .evt16, 0x3000, 0xF000⟩
  | .reset => ⟨"RESET", .evt16, 0xF000, 0xF000⟩
  | .reservedEvent0 => ⟨"RESERVED_EVENT", .evt16, 0x0000, 0xF000⟩
  | .reservedEvent4 _ => ⟨"RESERVED_EVENT", .evt16, 0x4000, 0xC000⟩
  | .reservedEvent8 _ => ⟨"RESERVED_EVENT", .evt16, 0x8000, 0xC000⟩
  | .reservedEventC _ => ⟨"RESERVED_EVENT", .evt16, 0xC000, 0xE000⟩
  | .reservedEventE => ⟨"RESERVED_EVENT", .evt16, 0xE000, 0xF000⟩
  | .tWrite _ _ => ⟨"T_WRITE", .uop8, 0x01, 0xFF⟩
  | .tRead _ => ⟨"T_READ", .uop8, 0x02, 0xFF⟩
  | .tGetRx => ⟨"T_GETRX", .uop8, 0x03, 0xFF⟩

/-- The port an input arrives on and its word as a number. -/
def Input.portWord : Input → Port × Nat
  | .cmd w => (.cmd32, w.toNat)
  | .evt w => (.evt16, w.toNat)
  | .uop code _ _ => (.uop8, code.toNat)

/-- The input's word is one of the row's words: right format, and the masked bits are the pattern. -/
def TableRow.admits (row : TableRow) (x : Input) : Bool :=
  decide (x.portWord.1 = row.port) && decide (x.portWord.2 &&& row.mask = row.pattern)

/-! ## The host's entry points -/

/-- The input that carries a table row's word: the format follows from the number of bits. A
micro-operation row has no operand bits, so its operands are zeros: address 0, empty payload. -/
def tableInput (nbits w : Nat) : Option Input :=
  match nbits with
  | 32 => some (.cmd (BitVec.ofNat 32 w))
  | 16 => some (.evt (BitVec.ofNat 16 w))
  | 8 => some (.uop (BitVec.ofNat 8 w) 0 [])
  | _ => none

/-- The instruction the decoder reads from a table row's word. -/
def decodeTableWord (nbits w : Nat) : Option Instr :=
  match tableInput nbits w with
  | some x => (decode x).toOption
  | none => none

end Sys2Proof
end

