-- ==== Sys2Proof/Machine/Lin.lean ====
section
/-! DEFINITION. LIN parity, protected identifier and checksum (40_transport.md R120 to R123). -/

namespace Sys2Proof.Machine

/-- `P0` of `parity(a)` (R120). -/
def parity0 (a : LinAddr) : Bool :=
  a.getLsbD 0 ^^ a.getLsbD 1 ^^ a.getLsbD 2 ^^ a.getLsbD 4

/-- `P1` of `parity(a)` (R120). -/
def parity1 (a : LinAddr) : Bool :=
  !(a.getLsbD 1 ^^ a.getLsbD 3 ^^ a.getLsbD 4 ^^ a.getLsbD 5)

/-- `pid(a)`, the protected identifier (R121, R90). -/
def pid (a : LinAddr) : Byte :=
  a.setWidth 8 ||| ((BitVec.ofBool (parity0 a)).setWidth 8 <<< 6)
    ||| ((BitVec.ofBool (parity1 a)).setWidth 8 <<< 7)

/-- One step of the end-around sum (R122): add, and fold a carry back by subtracting 255. -/
def linAdd (s x : Byte) : Byte :=
  let n := s.toNat + x.toNat
  BitVec.ofNat 8 (if 256 ≤ n then n - 255 else n)

/-- `lin_sum(seed, bytes)` (R122). -/
def linSum (seed : Byte) : List Byte → Byte
  | [] => seed
  | x :: xs => linSum (linAdd seed x) xs

/-- `checksum(seed, bytes)` (R123): the one's complement of the sum. Classic with seed 0, enhanced with
the PID as seed. -/
def checksum (seed : Byte) (bytes : List Byte) : Byte := 0xFF - linSum seed bytes

end Sys2Proof.Machine
end

