-- ==== Sys2Proof/Machine/Modes.lean ====
section
/-! DEFINITION. The desk's operating modes (30_encoding.md R98, R99) and the other small enumerations
of the state: bus state (R22, R100), direction of travel (R47), wire symbols (R87). -/

namespace Sys2Proof.Machine

/-- The fourteen Startup-class modes, the discovery states (R98). -/
inductive DMode where
  | begin | ann1 | ann2 | pre1 | pre2 | scan
  | readStatus | readUpHi | readUpLo | readLoHi | readLoLo | writeId
  | post1 | post2
  deriving DecidableEq, Repr, Inhabited

/-- The ten Operation-class modes (R98). -/
inductive OMode where
  | begin | normal | announcing | movingUp | movingDown | movingSlow | movingStop
  | calibrating | calibratingDone | rescue
  deriving DecidableEq, Repr, Inhabited

/-- `DESK.mode`: the 25 legal modes (R40, R98). R99: the other codes are reserved, no rule writes
them, and a model may hold the mode as this inductive with the code as a function. -/
inductive Mode where
  | idle
  | startup (m : DMode)
  | operation (m : OMode)
  deriving DecidableEq, Repr

/-- The low nibble of a Startup-class code (R98). -/
def DMode.nibble : DMode → BitVec 4
  | .begin => 0x0 | .ann1 => 0x1 | .ann2 => 0x2 | .pre1 => 0x3 | .pre2 => 0x4 | .scan => 0x5
  | .readStatus => 0x6 | .readUpHi => 0x7 | .readUpLo => 0x8 | .readLoHi => 0x9
  | .readLoLo => 0xA | .writeId => 0xB | .post1 => 0xC | .post2 => 0xD

/-- The low nibble of an Operation-class code (R98). -/
def OMode.nibble : OMode → BitVec 4
  | .begin => 0x0 | .normal => 0x1 | .announcing => 0x2 | .movingUp => 0x3 | .movingDown => 0x4
  | .movingSlow => 0x5 | .movingStop => 0x6 | .calibrating => 0x7 | .calibratingDone => 0x8
  | .rescue => 0x9

/-- The 8-bit mode code (R98): class in the high nibble, state in the low one. -/
def Mode.code : Mode → Byte
  | .idle => 0x00
  | .startup m => (0x1#4 ++ m.nibble : BitVec 8)
  | .operation m => (0x2#4 ++ m.nibble : BitVec 8)

/-- `class(m) = m[7:4]` (R43): 0 Idle, 1 Startup, 2 Operation. -/
def Mode.classOf (m : Mode) : BitVec 4 := m.code.extractLsb' 4 4

/-- `moving(m)` (R43): O.MovingUp, O.MovingDown or O.MovingSlow. -/
def Mode.moving : Mode → Bool
  | .operation .movingUp | .operation .movingDown | .operation .movingSlow => true
  | _ => false

/-- `T.bus_state` (R22). -/
inductive BusState where
  | idle | ready | sending | receiving
  deriving DecidableEq, Repr

/-- The codes of `T.bus_state` (R100). -/
def BusState.code : BusState → BitVec 2
  | .idle => 0 | .ready => 1 | .sending => 2 | .receiving => 3

/-- A direction of travel, one bit (R47): 0 = Up, 1 = Down. -/
inductive Dir where
  | up | down
  deriving DecidableEq, Repr

/-- The bit of a direction (R47). -/
def Dir.bit : Dir → BitVec 1
  | .up => 0 | .down => 1

/-- `1 − dir` (R222): away from the fault direction. -/
def Dir.reverse : Dir → Dir
  | .up => .down | .down => .up

/-- A symbol of the transmit line (R87). -/
inductive Symbol where
  | brk
  | byte (b : Byte)
  deriving DecidableEq, Repr

end Sys2Proof.Machine
end

