-- ==== Sys2Proof/Config.lean ====
section
/-! DEFINITION. The configuration record `CFG` (00_scope.md R7) and the values its table gives. This
hardware's record, with the fields the spec leaves OPEN free, stands in Machine/Parameters.lean (log
entry 1). -/

namespace Sys2Proof

open Machine (OMode)

/-- `CFG` (R7): every constant of the table, one field a row, but for `ASSIGN_ID`, which the table
defines from the two motor addresses (`Machine.assignId`). R75: it does not change while the block
runs. `blockedStates` holds the state codes that satisfy the predicate `is_blocked` (log entry 13). -/
structure Config where
  syncByte : Byte
  diagTxAddr : LinAddr
  diagRxAddr : LinAddr
  /-- OPEN (D11). -/
  addrMotorL : LinAddr
  /-- OPEN (D11). -/
  addrMotorR : LinAddr
  /-- OPEN (D11). -/
  addrHeartbeat : LinAddr
  /-- OPEN (D11). -/
  addrBroadcast : LinAddr
  /-- OPEN (D30). -/
  hbPayload : List Byte
  /-- OPEN (D43). -/
  instrIdle : Byte
  /-- OPEN (D43). -/
  instrAnnounce : Byte
  /-- OPEN (D43). -/
  instrUp : Byte
  /-- OPEN (D43). -/
  instrDown : Byte
  /-- OPEN (D43). -/
  instrSlow : Byte
  /-- OPEN (D43). -/
  instrStop : Byte
  /-- OPEN (D43). -/
  instrCalibrate : Byte
  /-- OPEN (D43). -/
  instrCalibrateStop : Byte
  /-- OPEN (D43). -/
  blockedStates : List Byte
  /-- OPEN (D43). -/
  stateCalibrated : Byte
  /-- OPEN (D44). -/
  stopDist : Pos
  slowDwell : Nat
  retryMax : Nat
  scanCount : Nat
  holdTicks : Nat
  readDelay : Nat
  cycleLen : Nat
  rescueLen : Nat
  motorCount : Nat
  nodeCount : Nat
  maxPayload : Nat
  rxCap : Nat
  /-- OPEN (D22). -/
  scanNad : Vector Byte 8
  /-- OPEN (D22). -/
  subScan : Byte
  /-- OPEN (D22). -/
  subRead : Byte
  /-- OPEN (D22). -/
  subWrite : Byte
  /-- OPEN (D22). -/
  subEcho : Byte
  /-- OPEN (D22). -/
  regStatus : Byte
  /-- OPEN (D22). -/
  regUpperHi : Byte
  /-- OPEN (D22). -/
  regUpperLo : Byte
  /-- OPEN (D22). -/
  regLowerHi : Byte
  /-- OPEN (D22). -/
  regLowerLo : Byte
  /-- OPEN (D22). -/
  regIdent : Byte
  /-- OPEN (D19). -/
  diagFrameAnn1 : Vector Byte 8
  /-- OPEN (D19). -/
  diagFrameAnn2 : Vector Byte 8
  /-- OPEN (D19). -/
  diagFramePre1 : Vector Byte 8
  /-- OPEN (D19). -/
  diagFramePre2 : Vector Byte 8
  /-- OPEN (D19). -/
  diagFramePost1 : Vector Byte 8
  /-- OPEN (D19). -/
  diagFramePost2 : Vector Byte 8
  filler : Byte
  /-- OPEN (D36). -/
  beginAtLimitNext : OMode
  outageMax : Nat
  sentinel8 : Byte
  sentinel16 : Pos
  deriving DecidableEq, Repr

namespace Config

/-- DESIGN CHOICE: the byte a register array gives at an index it does not have. No run from reset
reaches such an index (R68, R168, R176); the value is free (log entry 11). -/
opaque noSuchByte : Nat → Byte

/-- The fields to which R7's table gives a value hold that value ("A field with a value has that value
for this hardware"). -/
def tableValues (c : Config) : Bool :=
  c.syncByte == 0x55 && c.diagTxAddr == 0x3C && c.diagRxAddr == 0x3D
  && c.slowDwell == 3 && c.retryMax == 2 && c.scanCount == 8
  && c.holdTicks == 2 && c.readDelay == 1 && c.cycleLen == 19 && c.rescueLen == 23
  && c.motorCount == 2 && c.nodeCount == 8 && c.maxPayload == 8 && c.rxCap == 9
  && c.filler == 0xFF && c.outageMax == 255 && c.sentinel8 == 0xFF && c.sentinel16 == 0xFFFF

end Config

end Sys2Proof
end

