-- ==== Sys2Proof/Machine/Parameters.lean ====
section
/-! DEFINITION. The well-formedness of `CFG` (00_scope.md R8), and this hardware's `CFG`: well formed, with the
values R7's table gives, the OPEN fields free (log entry 1). -/

namespace Sys2Proof

namespace Machine

/-- `is_blocked(code)` (R7, D43). -/
def isBlocked (c : Config) (code : Byte) : Bool := c.blockedStates.contains code

/-- `CFG` is well formed (R8). Addresses are 6 bits by type. -/
def configWellFormed (c : Config) : Bool :=
  -- (a) six pairwise distinct addresses
  decide [c.addrMotorL, c.addrMotorR, c.addrHeartbeat, c.addrBroadcast, c.diagTxAddr, c.diagRxAddr].Nodup
  -- (b) a heartbeat payload of 1 to 8 bytes
  && decide (1 ≤ c.hbPayload.length ∧ c.hbPayload.length ≤ 8)
  -- (c) pairwise distinct node addresses
  && decide c.scanNad.toList.Nodup
  -- (d) a mode entered without setting a counter or a direction
  && [OMode.begin, .normal, .announcing, .movingStop, .calibrating, .calibratingDone].contains
      c.beginAtLimitNext
  -- (e) "calibrated" is no blocked code
  && !isBlocked c c.stateCalibrated

end Machine

namespace Config

/-- A configuration this hardware can start from: well formed (R8), with the table's values (R7). -/
structure Legal (c : Config) : Prop where
  wellFormed : Machine.configWellFormed c = true
  tableValues : c.tableValues = true

/-- A legal configuration: the conditions of R7 and R8 can be met together. It is no value of the model: it
stands only where Lean asks that the type of `openRecord` have a member, and no proof can recover it there. -/
def legalExample : { c : Config // c.Legal } :=
  ⟨{ syncByte := 0x55, diagTxAddr := 0x3C, diagRxAddr := 0x3D
     addrMotorL := 1, addrMotorR := 2, addrHeartbeat := 3, addrBroadcast := 4, hbPayload := [0]
     instrIdle := 0, instrAnnounce := 0, instrUp := 0, instrDown := 0, instrSlow := 0, instrStop := 0
     instrCalibrate := 0, instrCalibrateStop := 0, blockedStates := [], stateCalibrated := 0
     stopDist := 0, slowDwell := 3, retryMax := 2, scanCount := 8, holdTicks := 2, readDelay := 1
     cycleLen := 19, rescueLen := 23, motorCount := 2, nodeCount := 8, maxPayload := 8, rxCap := 9
     scanNad := #v[0, 1, 2, 3, 4, 5, 6, 7], subScan := 0, subRead := 0, subWrite := 0, subEcho := 0
     regStatus := 0, regUpperHi := 0, regUpperLo := 0, regLowerHi := 0, regLowerLo := 0, regIdent := 0
     diagFrameAnn1 := Vector.replicate 8 0, diagFrameAnn2 := Vector.replicate 8 0
     diagFramePre1 := Vector.replicate 8 0, diagFramePre2 := Vector.replicate 8 0
     diagFramePost1 := Vector.replicate 8 0, diagFramePost2 := Vector.replicate 8 0
     filler := 0xFF, beginAtLimitNext := .normal, outageMax := 255, sentinel8 := 0xFF
     sentinel16 := 0xFFFF }, ⟨by decide, by decide⟩⟩

/-- A legal configuration, without a body: no proof can see the value of an OPEN field, and R8 holds of it
because a model starts from no other (log entry 1). -/
opaque openRecord [Inhabited { c : Config // c.Legal }] : { c : Config // c.Legal }

/-- `c` with the value R7's table gives in every field to which it gives one. -/
def withTableValues (c : Config) : Config :=
  { c with
    syncByte := 0x55, diagTxAddr := 0x3C, diagRxAddr := 0x3D
    slowDwell := 3, retryMax := 2, scanCount := 8, holdTicks := 2, readDelay := 1
    cycleLen := 19, rescueLen := 23, motorCount := 2, nodeCount := 8, maxPayload := 8, rxCap := 9
    filler := 0xFF, outageMax := 255, sentinel8 := 0xFF, sentinel16 := 0xFFFF }

/-- This hardware's `CFG` (R7): the table's value where it gives one, the free record's where it says OPEN. It is
the free record, whose values the table's are; they are written out so that Lean can evaluate them. -/
def hardware : Config := (@openRecord ⟨legalExample⟩).1.withTableValues

end Config

end Sys2Proof
end

