-- ==== Sys2Proof/Machine/State.lean ====
section
/-! DEFINITION. The state of the block: every register of 10_state.md, grouped as 00_scope.md R14 groups
them, the output WIRE, the marks FAULTS and REFUSED, the response port, and the model's own input list. The
block has no addressable memory (20_memory.md R60), so State has none. -/

namespace Sys2Proof.Machine

/-- `T.*`, the transport's registers. -/
structure Transport where
  /-- `T.bus_state` (R22). -/
  busState : BusState
  /-- `T.tx_frame[0..10]` (R23): sync, PID, payload, checksum; without the BREAK. -/
  txFrame : Vector Byte 11
  /-- `T.tx_len`, 0..11 (R24). -/
  txLen : BitVec 4
  /-- `T.tx_idx`, 0..11 (R25). -/
  txIdx : BitVec 4
  /-- `T.tx_inflight` (R26). -/
  txInflight : Bool
  /-- `T.rx_enable` (R27). -/
  rxEnable : Bool
  /-- `T.echo_pending` (R28). -/
  echoPending : Bool
  /-- `T.rx_buf[0..8]` (R29). -/
  rxBuf : Vector Byte 9
  /-- `T.rx_count`, 0..9 (R30). -/
  rxCount : BitVec 4
  /-- `T.active_pid` (R31). -/
  activePid : Byte
  deriving DecidableEq, Repr

/-- `NODE[k].*` (R32). -/
structure NodeRecord where
  valid : Bool
  ident : LinAddr
  cap : Byte
  upHi : Byte
  upLo : Byte
  loHi : Byte
  loLo : Byte
  deriving DecidableEq, Repr

/-- `MOTOR[u].*` (R33). -/
structure MotorRecord where
  addr : LinAddr
  state : Byte
  pos : Pos
  cap : Byte
  outage : Byte
  lower : Pos
  upper : Pos
  deriving DecidableEq, Repr

/-- `D.*`, the discovery registers. -/
structure Discovery where
  /-- `D.cand`, 0..8 (R34). -/
  cand : BitVec 4
  /-- `D.retry`, 0..3 (R35). -/
  retry : BitVec 2
  /-- `D.disc_t`, 0..4 (R36). -/
  discT : BitVec 3
  /-- `D.found`, 0..2 (R37). -/
  found : BitVec 2
  deriving DecidableEq, Repr

/-- `DESK.*`, the desk registers. -/
structure Desk where
  /-- `DESK.lower` (R38). -/
  lower : Pos
  /-- `DESK.upper` (R38). -/
  upper : Pos
  /-- `DESK.current` (R39). -/
  current : Pos
  /-- `DESK.target` (R39). -/
  target : Pos
  /-- `DESK.mode` (R40). -/
  mode : Mode
  /-- `DESK.calib_req` (R41). -/
  calibReq : Bool
  /-- `DESK.busy` (R42). -/
  busy : Bool
  deriving DecidableEq, Repr

/-- `OP.*`, the operation controller's registers. -/
structure Operation where
  /-- `OP.slot`, 0..18 (R44). -/
  slot : BitVec 5
  /-- `OP.rescue_t`, 0..22 (R45). -/
  rescueT : BitVec 5
  /-- `OP.slow_cnt`, 0..3 (R46). -/
  slowCnt : BitVec 2
  /-- `OP.move_dir` (R47). -/
  moveDir : Dir
  /-- `OP.fault_dir` (R47). -/
  faultDir : Dir
  /-- `OP.cmd_pos` (R48). -/
  cmdPos : Pos
  /-- `OP.cmd_instr` (R48). -/
  cmdInstr : Byte
  deriving DecidableEq, Repr

/-- The model faults (R295), a closed set: behaviour the source leaves undefined. A meaning adds the
reason to `FAULTS`; the step that finds it there stops with it. -/
inductive Fault where
  /-- A symbol is emitted while the previous one has had no TX_DONE. Recorded by `emit` (R124). Safe: the
  spec itself ends the run there. -/
  | txOverrun
  /-- A byte arrives with `T.rx_count = RX_CAP`. Recorded by RX_BYTE (R129). Safe, as above. -/
  | rxOverflow
  /-- A third node answers the scan. Recorded by D.Scan (R169). Safe, as above. -/
  | extraNode
  deriving DecidableEq, Repr

/-- The refusals: the spec's closed set (R296) and the model's own. -/
inductive Refusal where
  /-- An instruction without a meaning in this model; raised by exec's arms only (none is left). Safe. -/
  | notModelled (mnemonic : String)
  /-- `CFG` breaks a condition of R8. Marked at model start (`powerOn`). Safe. -/
  | configIllFormed
  /-- An event word of a reserved kind (R85). Marked by the reserved events. Safe. -/
  | reservedEvent
  /-- A payload longer than 8 bytes (R125). Marked by T_WRITE. Safe. -/
  | writeTooLong
  /-- TX_DONE while no symbol is in flight: "not an input" (R297, U34). Raised by TX_DONE's meaning,
  which changes nothing. Safe. Log entry 6. -/
  | txDoneNotEnabled
  /-- A micro-operation record with an unassigned code (R86). Raised by the step, which changes nothing.
  Safe. Log entry 14. -/
  | unknownMicroOp (code : BitVec 8)
  deriving DecidableEq, Repr

/-- The block's state. -/
structure State where
  /-- `CFG` (R7), an argument of the model, constant for a run (R75). -/
  cfg : Config
  /-- `T.*`. -/
  t : Transport
  /-- `NODE[0..7]`. -/
  node : Vector NodeRecord 8
  /-- `MOTOR[0..1]`, 0 = left, 1 = right. -/
  motor : Vector MotorRecord 2
  /-- `D.*`. -/
  d : Discovery
  /-- `DESK.*`. -/
  desk : Desk
  /-- `OP.*`. -/
  op : Operation
  /-- `WIRE` (R49), oldest first. -/
  wire : List Symbol
  /-- `FAULTS` (R50): a set, no reason listed twice. -/
  faults : List Fault
  /-- `REFUSED` (R50). -/
  refused : Option Refusal
  /-- `RESP` (R81): the response of the last host command, none before the first (log entry 7). -/
  resp : Option RespWord
  /-- MODEL FIELD: the payload the last T_GETRX trace record returned, none before the first (log
  entry 8). -/
  uopResult : Option (List Byte)
  /-- MODEL FIELD: the inputs the environment will deliver, oldest first (log entry 3). -/
  input : List Input
  deriving DecidableEq, Repr

/-! ## Reset values (R51) -/

/-- The transport after RESET. -/
def Transport.atReset : Transport where
  busState := .idle
  txFrame := Vector.replicate 11 0
  txLen := 0
  txIdx := 0
  txInflight := false
  rxEnable := false
  echoPending := false
  rxBuf := Vector.replicate 9 0
  rxCount := 0
  activePid := 0

/-- A NodeRecord after RESET, and after D.Begin (R163). -/
def NodeRecord.atReset : NodeRecord where
  valid := false
  ident := 0
  cap := 0
  upHi := 0
  upLo := 0
  loHi := 0
  loLo := 0

/-- A MotorRecord after RESET. -/
def MotorRecord.atReset : MotorRecord where
  addr := 0
  state := 0
  pos := 0
  cap := 0
  outage := 0
  lower := 0
  upper := 0

/-- The discovery registers after RESET. -/
def Discovery.atReset : Discovery where
  cand := 0
  retry := 0
  discT := 0
  found := 0

/-- The desk registers after RESET. -/
def Desk.atReset : Desk where
  lower := 0
  upper := 0
  current := 0
  target := 0
  mode := .idle
  calibReq := false
  busy := false

/-- The operation registers after RESET. -/
def Operation.atReset : Operation where
  slot := 0
  rescueT := 0
  slowCnt := 0
  moveDir := .up
  faultDir := .up
  cmdPos := 0
  cmdInstr := 0

/-- The machine right after reset, the start of a fresh run (R51, R320): every register of R51's table at
its value, WIRE empty, FAULTS empty, REFUSED clear, this hardware's CFG; no response yet and no input
placed. -/
def State.reset : State where
  cfg := Config.hardware
  t := .atReset
  node := Vector.replicate 8 .atReset
  motor := Vector.replicate 2 .atReset
  d := .atReset
  desk := .atReset
  op := .atReset
  wire := []
  faults := []
  refused := none
  resp := none
  uopResult := none
  input := []

/-! ## Field updates -/

def State.withCfg (s : State) (v : Config) : State := { s with cfg := v }
def State.withT (s : State) (v : Transport) : State := { s with t := v }
def State.withNode (s : State) (v : Vector NodeRecord 8) : State := { s with node := v }
def State.withMotor (s : State) (v : Vector MotorRecord 2) : State := { s with motor := v }
def State.withD (s : State) (v : Discovery) : State := { s with d := v }
def State.withDesk (s : State) (v : Desk) : State := { s with desk := v }
def State.withOp (s : State) (v : Operation) : State := { s with op := v }
def State.withWire (s : State) (v : List Symbol) : State := { s with wire := v }
def State.withFaults (s : State) (v : List Fault) : State := { s with faults := v }
def State.withRefused (s : State) (v : Option Refusal) : State := { s with refused := v }
def State.withResp (s : State) (v : Option RespWord) : State := { s with resp := v }
def State.withUopResult (s : State) (v : Option (List Byte)) : State := { s with uopResult := v }
def State.withInput (s : State) (v : List Input) : State := { s with input := v }

end Sys2Proof.Machine
end

