-- ==== Sys2Proof/Machine/Operands.lean ====
section
/-! DEFINITION. The operand forms: byte order and integer differences (00_scope.md R10, R11,
20_memory.md R65), payload layouts (30_encoding.md R88, R92 to R96), and the reads of register arrays and of
CFG's tables. -/

namespace Sys2Proof.Machine

/-! ## Bytes and positions -/

/-- `lo8(v)` (R10). -/
def lo8 (v : Pos) : Byte := v.extractLsb' 0 8

/-- `hi8(v)` (R10). -/
def hi8 (v : Pos) : Byte := v.extractLsb' 8 8

/-- `{hi, lo}` (R10). -/
def joinBytes (hi lo : Byte) : Pos := hi ++ lo

/-- `|x − y|` on the integers (R11), as a natural number. -/
def absDiff (x y : Pos) : Nat := ((x.toNat : Int) - (y.toNat : Int)).natAbs

/-- `min` on positions (R11). -/
def posMin (x y : Pos) : Pos := if x.toNat ≤ y.toNat then x else y

/-- `max` on positions (R11). -/
def posMax (x y : Pos) : Pos := if x.toNat ≤ y.toNat then y else x

/-! ## CFG's tables -/

/-- `SCAN_NAD[k]` (R7). An index above 7 is never used (R168). -/
def scanNad (c : Config) (k : Nat) : Byte := (c.scanNad[k]?).getD (Config.noSuchByte k)

/-- `ASSIGN_ID[f]` (R7): the left motor's address, then the right one's. An index above 1 is never used
(R176). -/
def assignId (c : Config) (f : Nat) : LinAddr :=
  match f with
  | 0 => c.addrMotorL
  | 1 => c.addrMotorR
  | _ => (Config.noSuchByte f).setWidth 6

/-! ## Frames -/

/-- The checksum seed on transmit: classic for `DIAG_TX_ADDR`, else enhanced (R125). -/
def writeSeed (c : Config) (a : LinAddr) : Byte := if a = c.diagTxAddr then 0 else pid a

/-- The checksum seed on receive: classic for the diagnostic-response identifier, else the active PID
(R127). -/
def readSeed (c : Config) (activePid : Byte) : Byte :=
  if activePid = pid c.diagRxAddr then 0 else activePid

/-- The bytes of a write frame after its BREAK (R88). -/
def writeFrame (c : Config) (a : LinAddr) (p : List Byte) : List Byte :=
  c.syncByte :: pid a :: (p ++ [checksum (writeSeed c a) p])

/-- The bytes of a read header after its BREAK (R89). -/
def readHeader (c : Config) (a : LinAddr) : List Byte := [c.syncByte, pid a]

/-- Put `bytes` into `T.tx_frame` from index `i` on; the other bytes keep their values (R125, R126). -/
def loadFrame : List Byte → Nat → Vector Byte 11 → Vector Byte 11
  | [], _, v => v
  | b :: bs, i, v => loadFrame bs (i + 1) (v.setIfInBounds i b)

/-- `T.tx_frame[i]`. It is never read at or above `T.tx_len` ≤ 11 (R23). -/
def frameByte (t : Transport) (i : Nat) : Byte := (t.txFrame[i]?).getD (Config.noSuchByte i)

/-- The motor command payload (R94). -/
def commandPayload (pos : Pos) (instr : Byte) : List Byte := [lo8 pos, hi8 pos, instr]

/-! ## Diagnostic requests and responses -/

/-- `reg(S)` (R170); the other states have no register id. -/
def regOf (c : Config) : DMode → Option Byte
  | .readStatus => some c.regStatus
  | .readUpHi => some c.regUpperHi
  | .readUpLo => some c.regUpperLo
  | .readLoHi => some c.regLowerHi
  | .readLoLo => some c.regLowerLo
  | .writeId => some c.regIdent
  | _ => none

/-- A register-read request (R92): `[SCAN_NAD[c], SUB_READ, reg, FILLER ×5]`. -/
def readRequest (c : Config) (cand : Nat) (reg : Byte) : List Byte :=
  [scanNad c cand, c.subRead, reg, c.filler, c.filler, c.filler, c.filler, c.filler]

/-- `request(S)` (R168, R92). D.Begin sends no frame (R163). -/
def request (c : Config) (d : Discovery) : DMode → List Byte
  | .begin => []
  | .ann1 => c.diagFrameAnn1.toList
  | .ann2 => c.diagFrameAnn2.toList
  | .pre1 => c.diagFramePre1.toList
  | .pre2 => c.diagFramePre2.toList
  | .scan =>
    [scanNad c d.cand.toNat, c.subScan, c.filler, c.filler, c.filler, c.filler, c.filler, c.filler]
  | .readStatus => readRequest c d.cand.toNat c.regStatus
  | .readUpHi => readRequest c d.cand.toNat c.regUpperHi
  | .readUpLo => readRequest c d.cand.toNat c.regUpperLo
  | .readLoHi => readRequest c d.cand.toNat c.regLowerHi
  | .readLoLo => readRequest c d.cand.toNat c.regLowerLo
  | .writeId =>
    [scanNad c d.cand.toNat, c.subWrite, c.regIdent, (assignId c d.found.toNat).setWidth 8,
      c.filler, c.filler, c.filler, c.filler]
  | .post1 => c.diagFramePost1.toList
  | .post2 => c.diagFramePost2.toList

/-- The register value of a diagnostic response (R93, R170): `r[3]` when `n ≥ 4` and `r[2]` is the
register id of the request. -/
def registerValue (c : Config) (S : DMode) (r : List Byte) : Option Byte :=
  match regOf c S, r with
  | some reg, _ :: _ :: echoed :: value :: _ => if echoed = reg then some value else none
  | _, _ => none

/-! ## Registers by index -/

/-- `MOTOR[u]` for a host command's unit index (R259): none when `u ≥ MOTOR_COUNT`. -/
def motorOfUnit (s : State) (u : BitVec 8) : Option MotorRecord :=
  if u.toNat < s.cfg.motorCount then s.motor[u.toNat]? else none

/-- `drift()` (R226): the absolute difference of the two last known positions, 16 bits. -/
def drift (s : State) : Pos := BitVec.ofNat 16 (absDiff s.motor[0].pos s.motor[1].pos)

end Sys2Proof.Machine
end

