-- ==== Sys2Proof/Machine/Flags.lean ====
section
/-! DEFINITION. The block has no condition flags (10_state.md R20); the predicates its rules branch on stand
here: valid readings, the at-limit test, the distance tests, and the guards of the host commands. -/

namespace Sys2Proof.Machine

/-- Motor `u`'s last reading was valid: `MOTOR[u].outage = 0` (R224). -/
def validReading (m : MotorRecord) : Bool := m.outage == 0

/-- `at_limit(x)`, both limits inclusive (R227). -/
def atLimit (k : Desk) (x : Pos) : Bool := decide (x.toNat ≤ k.lower.toNat ∨ k.upper.toNat ≤ x.toNat)

/-- `|x − y| ≤ STOP_DIST` (R261, R214). -/
def withinStopDist (c : Config) (x y : Pos) : Bool := decide (absDiff x y ≤ c.stopDist.toNat)

/-- The signed remaining distance from `y` up to `x` is at most `STOP_DIST` (R216, R217). -/
def remainingAtMostStop (c : Config) (x y : Pos) : Bool :=
  decide ((x.toNat : Int) - (y.toNat : Int) ≤ (c.stopDist.toNat : Int))

/-- A motor reports "blocked" while the desk moves (R206). -/
def blockedWhileMoving (s : State) (u : Fin 2) : Bool :=
  isBlocked s.cfg s.motor[u].state && s.desk.mode.moving

/-- Both motors report calibrated (R220). -/
def bothCalibrated (s : State) : Bool :=
  s.motor[0].state == s.cfg.stateCalibrated && s.motor[1].state == s.cfg.stateCalibrated

end Sys2Proof.Machine
end

