-- ==== Sys2Proof/Machine/Ops.lean ====
section
/-! DEFINITION. The named operations the rules share: the end of a step at a fault or a refusal
(60_exceptions.md R295, R296), symbol emission (40_transport.md R124), the response (30_encoding.md R81), the
discovery sequencer's `enter` (41_discovery.md R162), entering and leaving Rescue (R300, R301), the writing
of the reset values (R51), power-on with a configuration (R8), and the taking of the next input. -/

namespace Sys2Proof.Machine

/-! ## Statements in sequence -/

/-- Where a rule's statements stand (R13): they go on from a state, or the step has ended in one, at a
`raise` or a `refuse`. -/
inductive Flow where
  | go (s : State)
  | stop (s : State)
  deriving DecidableEq, Repr

/-- The next statement, unless the step has ended. -/
def Flow.andThen (f : Flow) (k : State → Flow) : Flow :=
  match f with
  | .go s => k s
  | .stop s => .stop s

/-- The state a step leaves: writes made before a `raise` stand (R295). -/
def Flow.result : Flow → State
  | .go s => s
  | .stop s => s

/-- `raise Fault(reason)` (R295): the reason joins the set FAULTS, and the step ends. -/
def raise (r : Fault) (s : State) : Flow :=
  .stop (s.withFaults (if s.faults.contains r then s.faults else s.faults ++ [r]))

/-- `refuse(reason)` (R296): REFUSED is set, and the step ends. -/
def refuse (r : Refusal) (s : State) : Flow := .stop (s.withRefused (some r))

/-- `emit(x)` (R124). -/
def emit (x : Symbol) (s : State) : Flow :=
  if s.t.txInflight then raise .txOverrun s
  else .go ((s.withWire (s.wire ++ [x])).withT { s.t with txInflight := true })

/-! ## The response port -/

/-- The result codes (R82). -/
inductive ResultCode where
  | ok | notIdle | busy | notReady | invalidData | limitUpper | limitLower | belowMinDist
  deriving DecidableEq, Repr

/-- The numbers of the result codes (R82). -/
def ResultCode.number : ResultCode → BitVec 8
  | .ok => 0x00 | .notIdle => 0x01 | .busy => 0x02 | .notReady => 0x03 | .invalidData => 0x04
  | .limitUpper => 0x05 | .limitLower => 0x06 | .belowMinDist => 0x07

/-- The response word (R81): result in bits 31..24, zero in 23..16, value in 15..0. -/
def respWord (c : ResultCode) (value : BitVec 16) : RespWord := c.number ++ (0 : BitVec 8) ++ value

/-- `respond(code, value)` (R81). -/
def respond (c : ResultCode) (value : BitVec 16) (s : State) : State :=
  s.withResp (some (respWord c value))

/-! ## Sequencer transitions -/

/-- `enter(S)` (R162): the mode and the state's tick counter, nothing else. -/
def enter (S : DMode) (s : State) : State :=
  (s.withDesk { s.desk with mode := .startup S }).withD { s.d with discT := 0 }

/-- `DESK.mode <- O.m`. -/
def setOMode (m : OMode) (s : State) : State := s.withDesk { s.desk with mode := .operation m }

/-- `DESK.target <- DESK.current`: the snap of R213, R219, R221, R222 and R264. -/
def snapTarget (s : State) : State := s.withDesk { s.desk with target := s.desk.current }

/-- The direction of travel a blocked report interrupts (R206). -/
def travelDir (s : State) : Dir :=
  match s.desk.mode with
  | .operation .movingUp => .up
  | .operation .movingDown => .down
  | _ => s.op.moveDir

/-- Entering Rescue, the block's exception-like transfer (R206, R300): it saves the direction of travel
and nothing else, sets the mode and clears the rescue counter. -/
def enterRescue (s : State) : State :=
  setOMode .rescue (s.withOp { s.op with faultDir := travelDir s, rescueT := 0 })

/-- Returning from Rescue (R222 at r = 22, R301): to O.Normal with the target snapped, never back to the
interrupted move. -/
def leaveRescue (s : State) : State := setOMode .normal (snapTarget s)

/-! ## Reset values and power-on -/

/-- Every register of R51's table at its reset value (R320). WIRE, FAULTS, REFUSED, CFG and the model's
fields are not touched: R320 and R252 say so of the first three (log entry 9). -/
def resetRegisters (s : State) : State :=
  ((((((s.withT .atReset).withNode (Vector.replicate 8 .atReset)).withMotor
    (Vector.replicate 2 .atReset)).withD .atReset).withDesk .atReset).withOp .atReset)

/-- A fresh run with configuration `c` (R8, R75, R320): the reset state, with the refusal
ConfigIllFormed when `c` is ill formed, so that no step is taken from it (log entry 2). -/
def powerOn (c : Config) : State :=
  let s := State.reset.withCfg c
  if configWellFormed c then s else s.withRefused (some .configIllFormed)

/-! ## Taking the next input -/

/-- A state whose FAULTS or REFUSED holds a reason takes no further step (R295, R296): the outcome that
reports it. -/
def halted (s : State) : Option (Host.Outcome State Fault Refusal) :=
  match s.faults, s.refused with
  | f :: _, _ => some (.fault f)
  | [], some r => some (.refused r)
  | [], none => none

/-- What the next step finds: nothing to do, an input that stands for no instruction, or an instruction
and the state without that input. -/
inductive Fetched where
  | none
  | bad (r : Refusal)
  | instr (i : Instr) (s : State)
  deriving DecidableEq, Repr

/-- Take the oldest input off the list and decode it (log entry 3). -/
def fetch (s : State) : Fetched :=
  match s.input with
  | [] => .none
  | x :: rest =>
    match decode x with
    | .ok i => .instr i (s.withInput rest)
    | .error (.unknownMicroOp code) => .bad (.unknownMicroOp code)

/-- What an input needs in order to be an input at all: TX_DONE is one only while a symbol is in flight
(R297); every other input is always enabled. -/
def enableInput (x : Input) (s : State) : State :=
  match decode x with
  | .ok .txDone => s.withT { s.t with txInflight := true }
  | _ => s

/-- Put the input that carries a table row's word where the next step takes its input, and enable it (log
entry 3). -/
def placeWord (s : State) (nbits w : Nat) : State :=
  match tableInput nbits w with
  | some x => (enableInput x s).withInput (x :: s.input)
  | none => s

end Sys2Proof.Machine
end

