-- ==== Sys2Proof/Machine/Facade.lean ====
section
/-! DEFINITION. Desk Facade (43_facade.md): the host commands. Each runs as one step and answers one
response word (30_encoding.md R81). -/

namespace Sys2Proof.Machine

/-- The end of a command: `return respond(code, value)`. -/
def answer (c : ResultCode) (value : BitVec 16) (s : State) : Host.Outcome State Fault Refusal :=
  .next (respond c value s)

/-! ## Control commands -/

/-- INIT(enabled) (R252): the reset values but for `T.tx_inflight`, and the transport Ready or Idle. -/
def execInit (enabled : Bool) (s : State) : Host.Outcome State Fault Refusal :=
  let s' := resetRegisters s
  answer .ok 0 (s'.withT { s'.t with
    busState := if enabled then .ready else .idle
    txInflight := s.t.txInflight })

/-- START_DISCOVERY (R251). -/
def execStartDiscovery (s : State) : Host.Outcome State Fault Refusal :=
  if s.t.busState = .idle then answer .notReady 0 s
  else if s.desk.busy then answer .busy 0 s
  else
    let s := enter .begin s
    answer .ok 0 (s.withDesk { s.desk with busy := true })

/-! ## Desk queries -/

/-- GET_BUSY (R253). -/
def execGetBusy (s : State) : Host.Outcome State Fault Refusal :=
  answer .ok ((BitVec.ofBool s.desk.busy).setWidth 16) s

/-- GET_MODE (R254). -/
def execGetMode (s : State) : Host.Outcome State Fault Refusal :=
  answer .ok (s.desk.mode.code.setWidth 16) s

/-- GET_DRIFT (R255). -/
def execGetDrift (s : State) : Host.Outcome State Fault Refusal := answer .ok (drift s) s

/-- GET_POSITION (R256). -/
def execGetPosition (s : State) : Host.Outcome State Fault Refusal := answer .ok s.desk.current s

/-- GET_LOWER_LIMIT (R257). -/
def execGetLowerLimit (s : State) : Host.Outcome State Fault Refusal := answer .ok s.desk.lower s

/-- GET_UPPER_LIMIT (R258). -/
def execGetUpperLimit (s : State) : Host.Outcome State Fault Refusal := answer .ok s.desk.upper s

/-! ## Per-motor queries (R259) -/

/-- A 16-bit field of `MOTOR[u]`, or `SENTINEL16`. -/
def motorField16 (field : MotorRecord → Pos) (u : BitVec 8) (s : State) : BitVec 16 :=
  match motorOfUnit s u with
  | some m => field m
  | none => s.cfg.sentinel16

/-- An 8-bit field of `MOTOR[u]`, or `SENTINEL8`, zero-extended. -/
def motorField8 (field : MotorRecord → Byte) (u : BitVec 8) (s : State) : BitVec 16 :=
  match motorOfUnit s u with
  | some m => (field m).setWidth 16
  | none => s.cfg.sentinel8.setWidth 16

/-- GET_MOTOR_STATE(u) (R265). -/
def execGetMotorState (unit : BitVec 8) (s : State) : Host.Outcome State Fault Refusal :=
  answer .ok (motorField8 (·.state) unit s) s

/-- GET_MOTOR_POSITION(u) (R266). -/
def execGetMotorPosition (unit : BitVec 8) (s : State) : Host.Outcome State Fault Refusal :=
  answer .ok (motorField16 (·.pos) unit s) s

/-- GET_MOTOR_LOWER_LIMIT(u) (R267). -/
def execGetMotorLowerLimit (unit : BitVec 8) (s : State) : Host.Outcome State Fault Refusal :=
  answer .ok (motorField16 (·.lower) unit s) s

/-- GET_MOTOR_UPPER_LIMIT(u) (R268). -/
def execGetMotorUpperLimit (unit : BitVec 8) (s : State) : Host.Outcome State Fault Refusal :=
  answer .ok (motorField16 (·.upper) unit s) s

/-- GET_MOTOR_ADDRESS(u) (R269): the 6-bit address, not the PID. -/
def execGetMotorAddress (unit : BitVec 8) (s : State) : Host.Outcome State Fault Refusal :=
  answer .ok (motorField8 (·.addr.setWidth 8) unit s) s

/-- GET_MOTOR_CAPABILITY(u) (R270). -/
def execGetMotorCapability (unit : BitVec 8) (s : State) : Host.Outcome State Fault Refusal :=
  answer .ok (motorField8 (·.cap) unit s) s

/-! ## Mutators -/

/-- The admission checks REQUEST_POSITION and REQUEST_CALIBRATION share, in their order (R299): busy,
class, mode. None when the request is admitted so far. -/
def moveGuard (s : State) : Option ResultCode :=
  if s.desk.busy then some .busy
  else if s.desk.mode.classOf ≠ 2 then some .notReady
  else if s.desk.mode ≠ .operation .normal then some .notIdle
  else none

/-- REQUEST_POSITION's checks after the guard (R260): upper limit, lower limit, distance. -/
def targetGuard (target : Pos) (s : State) : Option ResultCode :=
  if s.desk.upper.toNat < target.toNat then some .limitUpper
  else if target.toNat < s.desk.lower.toNat then some .limitLower
  else if withinStopDist s.cfg target s.desk.current then some .belowMinDist
  else none

/-- REQUEST_POSITION(target) (R260, R261). -/
def execRequestPosition (target : BitVec 16) (s : State) : Host.Outcome State Fault Refusal :=
  match moveGuard s with
  | some c => answer c 0 s
  | none =>
    match targetGuard target s with
    | some c => answer c 0 s
    | none => answer .ok 0 (s.withDesk { s.desk with target := target })

/-- REQUEST_CALIBRATION (R263). -/
def execRequestCalibration (s : State) : Host.Outcome State Fault Refusal :=
  match moveGuard s with
  | some c => answer c 0 s
  | none => answer .ok 0 (s.withDesk { s.desk with calibReq := true })

/-- REQUEST_HALT (R264): in every mode, busy or not. -/
def execRequestHalt (s : State) : Host.Outcome State Fault Refusal := answer .ok 0 (snapTarget s)

/-! ## Reserved opcodes -/

/-- A reserved opcode (R271): INVALID_DATA, no register changes. -/
def reservedOpcode (s : State) : Host.Outcome State Fault Refusal := answer .invalidData 0 s

/-- Opcode 0x00 (R84, R271). -/
def execReservedOpcode00 (s : State) : Host.Outcome State Fault Refusal := reservedOpcode s

/-- Opcode 0x0F (R84, R271). -/
def execReservedOpcode0F (s : State) : Host.Outcome State Fault Refusal := reservedOpcode s

/-- Opcode 0x13 (R84, R271). -/
def execReservedOpcode13 (s : State) : Host.Outcome State Fault Refusal := reservedOpcode s

/-- Opcodes 0x14..0x17 (R84, R271). -/
def execReservedOpcode14 (_low : BitVec 2) (s : State) : Host.Outcome State Fault Refusal :=
  reservedOpcode s

/-- Opcodes 0x18..0x1F (R84, R271). -/
def execReservedOpcode18 (_low : BitVec 3) (s : State) : Host.Outcome State Fault Refusal :=
  reservedOpcode s

/-- Opcodes 0x20..0x3F (R84, R271). -/
def execReservedOpcode20 (_low : BitVec 5) (s : State) : Host.Outcome State Fault Refusal :=
  reservedOpcode s

/-- Opcodes 0x40..0x7F (R84, R271). -/
def execReservedOpcode40 (_low : BitVec 6) (s : State) : Host.Outcome State Fault Refusal :=
  reservedOpcode s

/-- Opcodes 0x80..0xFF (R84, R271). -/
def execReservedOpcode80 (_low : BitVec 7) (s : State) : Host.Outcome State Fault Refusal :=
  reservedOpcode s

end Sys2Proof.Machine
end

