-- ==== Sys2Proof/Machine/Transport.lean ====
section
/-! DEFINITION. Bus Transport (40_transport.md): T_WRITE, T_READ, T_GETRX, TX_DONE, RX_BYTE. -/

namespace Sys2Proof.Machine

/-! ## Transport entry points -/

/-- T_WRITE's register writes before its emit (R125). -/
def startWrite (c : Config) (a : LinAddr) (p : List Byte) (t : Transport) : Transport :=
  { t with
    txFrame := loadFrame (writeFrame c a p) 0 t.txFrame
    txLen := BitVec.ofNat 4 (p.length + 3)
    txIdx := 0
    activePid := pid a
    busState := .sending }

/-- `T_WRITE(a, p)` (R125). -/
def transportWrite (a : LinAddr) (p : List Byte) (s : State) : Flow :=
  if s.cfg.maxPayload < p.length then refuse .writeTooLong s
  else if s.t.busState ≠ .ready ∨ p = [] then .go s
  else emit .brk (s.withT (startWrite s.cfg a p s.t))

/-- T_READ's register writes before its emit (R126). -/
def startRead (c : Config) (a : LinAddr) (t : Transport) : Transport :=
  { t with
    txFrame := loadFrame (readHeader c a) 0 t.txFrame
    txLen := 2
    txIdx := 0
    activePid := pid a
    rxEnable := false
    echoPending := false
    busState := .receiving }

/-- `T_READ(a)` (R126). -/
def transportRead (a : LinAddr) (s : State) : Flow :=
  if s.t.busState ≠ .ready then .go s
  else emit .brk (s.withT (startRead s.cfg a s.t))

/-- The payload of the bytes received (R127): all but the last byte, when there are at least two and the
last one is the checksum of the others; else no payload. -/
def receivedPayload (c : Config) (t : Transport) : List Byte :=
  let n := t.rxCount.toNat
  if 2 ≤ n then
    let body := t.rxBuf.toList.take (n - 1)
    if t.rxBuf[n - 1]? = some (checksum (readSeed c t.activePid) body) then body else []
  else []

/-- T_GETRX's register writes (R127). -/
def endReception (t : Transport) : Transport :=
  { t with busState := .ready, rxCount := 0, rxEnable := false, echoPending := false }

/-- `T_GETRX()` (R127): the payload `r` (its length is `n`) and the state after. -/
def transportGetRx (s : State) : List Byte × State :=
  if s.t.busState = .idle then ([], s)
  else (receivedPayload s.cfg s.t, s.withT (endReception s.t))

/-! ## The byte pump -/

/-- Emit the next byte of the frame (R128). -/
def pumpByte (s : State) : Flow :=
  emit (.byte (frameByte s.t s.t.txIdx.toNat)) (s.withT { s.t with txIdx := s.t.txIdx + 1 })

/-- `EV_TX_DONE` (R128) once `T.tx_inflight` is cleared. -/
def txDoneBody (s : State) : Flow :=
  match s.t.busState with
  | .sending =>
    if s.t.txIdx < s.t.txLen then pumpByte s
    else .go (s.withT { s.t with busState := .ready })
  | .receiving =>
    if s.t.rxEnable then .go s
    else if s.t.txIdx < s.t.txLen then pumpByte s
    else .go (s.withT { s.t with rxEnable := true, echoPending := true })
  | .idle => .go s
  | .ready => .go s

/-- `EV_RX_BYTE(b)` (R129). -/
def receiveByte (b : Byte) (s : State) : Flow :=
  if s.t.busState ≠ .receiving ∨ s.t.rxEnable = false then .go s
  else if s.t.echoPending = true ∧ b = s.t.activePid then
    .go (s.withT { s.t with echoPending := false })
  else if s.t.rxCount.toNat = s.cfg.rxCap then raise .rxOverflow s
  else
    .go (s.withT { s.t with
      rxBuf := s.t.rxBuf.setIfInBounds s.t.rxCount.toNat b
      rxCount := s.t.rxCount + 1 })

/-! ## Meanings -/

/-- T_WRITE as a traced micro-operation (R86, R125; log entry 4). -/
def execTWrite (addr : LinAddr) (payload : List Byte) (s : State) : Host.Outcome State Fault Refusal :=
  .next (transportWrite addr payload s).result

/-- T_READ as a traced micro-operation (R86, R126; log entry 4). -/
def execTRead (addr : LinAddr) (s : State) : Host.Outcome State Fault Refusal :=
  .next (transportRead addr s).result

/-- T_GETRX as a traced micro-operation (R86, R127): its result stands on the trace line (log entries 4
and 8). -/
def execTGetRx (s : State) : Host.Outcome State Fault Refusal :=
  .next ((transportGetRx s).2.withUopResult (some (transportGetRx s).1))

/-- TX_DONE (R128), enabled only while a symbol is in flight (R297): otherwise it is "not an input" (U34),
and the model refuses it by name (log entry 6). -/
def execTxDone (s : State) : Host.Outcome State Fault Refusal :=
  if s.t.txInflight then .next (txDoneBody (s.withT { s.t with txInflight := false })).result
  else .refused .txDoneNotEnabled

/-- RX_BYTE(b) (R129), always enabled. -/
def execRxByte (b : Byte) (s : State) : Host.Outcome State Fault Refusal :=
  .next (receiveByte b s).result

end Sys2Proof.Machine
end

