-- ==== Sys2Proof/Machine/Discovery.lean ====
section
/-! DEFINITION. Discovery Controller (41_discovery.md): the per-state schedule, one evaluation for each
Startup-class mode, and the completion that builds the MotorRecords and the desk-wide limits. -/

namespace Sys2Proof.Machine

/-! ## Shared procedures -/

/-- `retry()` (R177) in the register state `S`: the third invalid response in a row aborts to D.Begin;
before that the same state is entered again. -/
def retryRead (S : DMode) (s : State) : State :=
  let n := s.d.retry.toNat + 1
  enter (if s.cfg.retryMax < n then .begin else S) (s.withD { s.d with retry := BitVec.ofNat 2 n })

/-- `advance()` (R178): the next candidate, or D.Post1 after the last. -/
def advance (s : State) : State :=
  let n := s.d.cand.toNat + 1
  enter (if n = s.cfg.scanCount then .post1 else .scan) (s.withD { s.d with cand := BitVec.ofNat 4 n })

/-- Change `NODE[D.cand]`. -/
def updateNode (f : NodeRecord → NodeRecord) (s : State) : State :=
  match s.node[s.d.cand.toNat]? with
  | some nd => s.withNode (s.node.setIfInBounds s.d.cand.toNat (f nd))
  | none => s

/-- A register state's evaluation (R171 to R175): a valid response is stored, clears the retry count and
enters the next state; any other is a retry. -/
def evalRegister (S next : DMode) (store : Byte → NodeRecord → NodeRecord) (r : List Byte)
    (s : State) : State :=
  match registerValue s.cfg S r with
  | some value =>
    let s := updateNode (store value) s
    enter next (s.withD { s.d with retry := 0 })
  | none => retryRead S s

/-! ## Completion -/

/-- The MotorRecord of unit `u` (R181): built from the NodeRecord when that node was found, else with
zero capability and limits. The limits are big-endian (R65). -/
def motorFromNode (addr : LinAddr) : Option NodeRecord → MotorRecord
  | some nd =>
    { addr := addr, state := 0, pos := 0, cap := nd.cap, outage := 0,
      lower := joinBytes nd.loHi nd.loLo, upper := joinBytes nd.upHi nd.upLo }
  | none => { MotorRecord.atReset with addr := addr }

/-- The valid NodeRecords in increasing candidate order: `vs` (R181). -/
def foundNodes (s : State) : List NodeRecord := s.node.toList.filter (·.valid)

/-- `build_motors()` (R181). -/
def buildMotors (s : State) : State :=
  s.withMotor #v[motorFromNode (assignId s.cfg 0) (foundNodes s)[0]?,
    motorFromNode (assignId s.cfg 1) (foundNodes s)[1]?]

/-- `derive_limits()` (R182): the intersection of the two motors' limits. -/
def deriveLimits (s : State) : State :=
  s.withDesk { s.desk with
    lower := posMax s.motor[0].lower s.motor[1].lower
    upper := posMin s.motor[0].upper s.motor[1].upper }

/-- The end of discovery (R180 with at least one node found). -/
def completeDiscovery (s : State) : State :=
  let s := setOMode .begin (deriveLimits (buildMotors s))
  (s.withD { s.d with discT := 0 }).withOp { s.op with slot := 0 }

/-! ## The evaluations -/

/-- D.Begin (R163), in place of the schedule of R161. -/
def stepBegin (s : State) : State :=
  if s.d.discT.toNat < s.cfg.holdTicks then s.withD { s.d with discT := s.d.discT + 1 }
  else
    enter .ann1 ((s.withD { s.d with cand := 0, retry := 0, found := 0 }).withNode
      (Vector.replicate 8 .atReset))

/-- D.Ann1 (R164): the response is ignored. -/
def evalAnn1 (s : State) : State := enter .ann2 s

/-- D.Ann2 (R165). -/
def evalAnn2 (s : State) : State := enter .pre1 s

/-- D.Pre1 (R166). -/
def evalPre1 (s : State) : State := enter .pre2 s

/-- D.Pre2 (R167). -/
def evalPre2 (s : State) : State := enter .scan s

/-- D.Scan (R169): any valid response counts; a third node is a fault. -/
def evalScan (r : List Byte) (s : State) : Flow :=
  if 1 ≤ r.length then
    if s.d.found.toNat = s.cfg.motorCount then raise .extraNode s
    else .go (enter .readStatus (s.withD { s.d with retry := 0 }))
  else .go (advance s)

/-- D.ReadStatus (R171): the status byte is the capability byte. -/
def evalReadStatus (r : List Byte) (s : State) : State :=
  evalRegister .readStatus .readUpHi (fun v nd => { nd with cap := v }) r s

/-- D.ReadUpHi (R172). -/
def evalReadUpHi (r : List Byte) (s : State) : State :=
  evalRegister .readUpHi .readUpLo (fun v nd => { nd with upHi := v }) r s

/-- D.ReadUpLo (R173). -/
def evalReadUpLo (r : List Byte) (s : State) : State :=
  evalRegister .readUpLo .readLoHi (fun v nd => { nd with upLo := v }) r s

/-- D.ReadLoHi (R174). -/
def evalReadLoHi (r : List Byte) (s : State) : State :=
  evalRegister .readLoHi .readLoLo (fun v nd => { nd with loHi := v }) r s

/-- D.ReadLoLo (R175). -/
def evalReadLoLo (r : List Byte) (s : State) : State :=
  evalRegister .readLoLo .writeId (fun v nd => { nd with loLo := v }) r s

/-- D.WriteId (R176): the node gets the next logical identifier; the echoed value is not checked. -/
def evalWriteId (r : List Byte) (s : State) : State :=
  match registerValue s.cfg .writeId r with
  | some _ =>
    let s := updateNode
      (fun nd => { nd with ident := assignId s.cfg s.d.found.toNat, valid := true }) s
    advance (s.withD { s.d with found := s.d.found + 1, retry := 0 })
  | none => retryRead .writeId s

/-- D.Post1 (R179). -/
def evalPost1 (s : State) : State := enter .post2 s

/-- D.Post2 (R180): scan again when no node was found, else complete. -/
def evalPost2 (s : State) : State :=
  if s.d.found = 0 then enter .scan (s.withD { s.d with cand := 0 })
  else completeDiscovery s

/-- `eval_S(n, r)` (R164 to R180). D.Begin has its own step. -/
def evalState (S : DMode) (r : List Byte) (s : State) : Flow :=
  match S with
  | .begin => .go s
  | .ann1 => .go (evalAnn1 s)
  | .ann2 => .go (evalAnn2 s)
  | .pre1 => .go (evalPre1 s)
  | .pre2 => .go (evalPre2 s)
  | .scan => evalScan r s
  | .readStatus => .go (evalReadStatus r s)
  | .readUpHi => .go (evalReadUpHi r s)
  | .readUpLo => .go (evalReadUpLo r s)
  | .readLoHi => .go (evalReadLoHi r s)
  | .readLoLo => .go (evalReadLoLo r s)
  | .writeId => .go (evalWriteId r s)
  | .post1 => .go (evalPost1 s)
  | .post2 => .go (evalPost2 s)

/-! ## The schedule -/

/-- `D.disc_t <- D.disc_t + 1` (R161). -/
def countTick (s : State) : Flow := .go (s.withD { s.d with discT := s.d.discT + 1 })

/-- `discovery_step()` in state `S` (R161): hold, request, read, evaluate; D.Begin by R163. -/
def discoveryStep (S : DMode) (s : State) : Flow :=
  if S = .begin then .go (stepBegin s)
  else
    let t := s.d.discT.toNat
    if t < s.cfg.holdTicks then countTick s
    else if t = s.cfg.holdTicks then
      (transportWrite s.cfg.diagTxAddr (request s.cfg s.d S) s).andThen countTick
    else if t = s.cfg.holdTicks + s.cfg.readDelay then
      (transportRead s.cfg.diagRxAddr s).andThen countTick
    else
      evalState S (transportGetRx s).1 (transportGetRx s).2

end Sys2Proof.Machine
end

