-- ==== Sys2Proof/Machine/Operation.lean ====
section
/-! DEFINITION. Operation Controller (42_operation.md): the 19-slot cycle, motor readings and fault
detection, the desk state machine and the motor command. -/

namespace Sys2Proof.Machine

/-! ## Readings -/

/-- `detect(u)` (R206): a blocked report while moving enters Rescue. -/
def detect (u : Fin 2) (s : State) : State :=
  if blockedWhileMoving s u then enterRescue s else s

/-- `MOTOR[u]` after a reading (R205, R95): `[pos_lo, pos_hi, state, …]` is valid; a shorter one counts
an outage, saturating at `OUTAGE_MAX`. -/
def readingOf (c : Config) (r : List Byte) (m : MotorRecord) : MotorRecord :=
  match r with
  | lo :: hi :: code :: _ => { m with pos := joinBytes hi lo, state := code, outage := 0 }
  | _ => { m with outage := BitVec.ofNat 8 (min c.outageMax (m.outage.toNat + 1)) }

/-- `process(u, n, r)` (R205): only a valid reading is examined for a blocked report. -/
def process (u : Fin 2) (r : List Byte) (s : State) : State :=
  let s := s.withMotor (s.motor.set u (readingOf s.cfg r s.motor[u]))
  if 3 ≤ r.length then detect u s else s

/-! ## The motor command -/

/-- `pos_sel(dir)` (R224): up drives the lagging motor, down the leading one; one motor in outage leaves
the other; both hold the last commanded position (D41, U1; log entry 17). -/
def posSel (dir : Dir) (s : State) : Pos :=
  let l := s.motor[0]
  let r := s.motor[1]
  if validReading l && validReading r then
    match dir with
    | .up => posMin l.pos r.pos
    | .down => posMax l.pos r.pos
  else if validReading l then l.pos
  else if validReading r then r.pos
  else s.op.cmdPos

/-- The drive instruction of a direction. -/
def driveInstr (c : Config) : Dir → Byte
  | .up => c.instrUp
  | .down => c.instrDown

/-- `rescue_instr(r, rev)` (R222's table). A count above 22 is never reached (R45). -/
def rescueInstr (c : Config) (r : Nat) (rev : Dir) : Byte :=
  if r ≤ 2 then c.instrStop
  else if r ≤ 10 then driveInstr c rev
  else if r ≤ 14 then c.instrSlow
  else if r ≤ 17 then c.instrStop
  else if r ≤ 18 then c.instrAnnounce
  else if r ≤ 22 then c.instrIdle
  else Config.noSuchByte r

/-- `instr_of(m)` (R223). -/
def instrOf (m : OMode) (s : State) : Byte :=
  match m with
  | .begin => s.cfg.instrIdle
  | .normal => s.cfg.instrIdle
  | .announcing => s.cfg.instrAnnounce
  | .movingUp => s.cfg.instrUp
  | .movingDown => s.cfg.instrDown
  | .movingSlow => s.cfg.instrSlow
  | .movingStop => s.cfg.instrStop
  | .calibrating => s.cfg.instrCalibrate
  | .calibratingDone => s.cfg.instrCalibrateStop
  | .rescue => rescueInstr s.cfg s.op.rescueT.toNat s.op.faultDir.reverse

/-- `pos_of(m)` (R225). -/
def posOf (m : OMode) (s : State) : Pos :=
  match m with
  | .movingUp => posSel .up s
  | .movingDown => posSel .down s
  | .movingSlow | .movingStop => posSel s.op.moveDir s
  | .begin | .normal | .announcing | .calibrating | .calibratingDone => s.desk.current
  | .rescue => posSel s.op.faultDir.reverse s

/-- `OP.cmd_instr <- …; OP.cmd_pos <- …` for a mode (R212). -/
def setCommand (m : OMode) (s : State) : State :=
  s.withOp { s.op with cmdInstr := instrOf m s, cmdPos := posOf m s }

/-! ## Desk state machine -/

/-- O.Begin (R213). -/
def dsmBegin (s : State) : State :=
  setOMode (if atLimit s.desk s.desk.current then s.cfg.beginAtLimitNext else .normal) (snapTarget s)

/-- O.Normal (R214). -/
def dsmNormal (s : State) : State :=
  if s.desk.calibReq || !withinStopDist s.cfg s.desk.target s.desk.current then setOMode .announcing s
  else s

/-- O.Announcing (R215): calibration wins over a move. -/
def dsmAnnouncing (s : State) : State :=
  if s.desk.calibReq then
    setOMode .calibrating (s.withDesk { s.desk with calibReq := false })
  else if s.desk.current.toNat < s.desk.target.toNat then
    setOMode .movingUp (s.withOp { s.op with moveDir := .up })
  else if s.desk.target.toNat < s.desk.current.toNat then
    setOMode .movingDown (s.withOp { s.op with moveDir := .down })
  else setOMode .normal s

/-- Into O.MovingSlow (R216, R217). -/
def enterSlow (s : State) : State := setOMode .movingSlow (s.withOp { s.op with slowCnt := 0 })

/-- O.MovingUp (R216). -/
def dsmMovingUp (s : State) : State :=
  if remainingAtMostStop s.cfg s.desk.target s.desk.current then enterSlow s else s

/-- O.MovingDown (R217). -/
def dsmMovingDown (s : State) : State :=
  if remainingAtMostStop s.cfg s.desk.current s.desk.target then enterSlow s else s

/-- O.MovingSlow (R218). -/
def dsmMovingSlow (s : State) : State :=
  let n := s.op.slowCnt.toNat + 1
  let s := s.withOp { s.op with slowCnt := BitVec.ofNat 2 n }
  if s.cfg.slowDwell ≤ n then setOMode .movingStop s else s

/-- O.MovingStop (R219). -/
def dsmMovingStop (s : State) : State := setOMode .normal (snapTarget s)

/-- O.Calibrating (R220). -/
def dsmCalibrating (s : State) : State :=
  if bothCalibrated s then setOMode .calibratingDone s else s

/-- O.CalibratingDone (R221). -/
def dsmCalibratingDone (s : State) : State := setOMode .normal (snapTarget s)

/-- O.Rescue (R222): the return at the last rescue-tick, before it the phase table's command. -/
def dsmRescue (s : State) : State :=
  let r := s.op.rescueT.toNat
  let rev := s.op.faultDir.reverse
  if r + 1 = s.cfg.rescueLen then leaveRescue s
  else
    s.withOp { s.op with
      rescueT := s.op.rescueT + 1
      cmdInstr := rescueInstr s.cfg r rev
      cmdPos := posSel rev s }

/-- The transition rule of mode `m` (R213 to R222). -/
def dsmTransition (m : OMode) (s : State) : State :=
  match m with
  | .begin => dsmBegin s
  | .normal => dsmNormal s
  | .announcing => dsmAnnouncing s
  | .movingUp => dsmMovingUp s
  | .movingDown => dsmMovingDown s
  | .movingSlow => dsmMovingSlow s
  | .movingStop => dsmMovingStop s
  | .calibrating => dsmCalibrating s
  | .calibratingDone => dsmCalibratingDone s
  | .rescue => dsmRescue s

/-- `dsm_step()` in mode `m` (R212): one transition, then the command of the mode after it, unless Rescue
goes on, which has set its own. -/
def dsmStep (m : OMode) (s : State) : State :=
  let s := dsmTransition m s
  match s.desk.mode with
  | .operation m' => if m = .rescue ∧ m' = .rescue then s else setCommand m' s
  | _ => s

/-! ## The operation cycle -/

/-- Slot 0 (R201): busy, then the heartbeat. -/
def slotHeartbeat (s : State) : Flow :=
  transportWrite s.cfg.addrHeartbeat s.cfg.hbPayload (s.withDesk { s.desk with busy := true })

/-- Slot 1 (R202). -/
def slotPollLeft (s : State) : Flow := transportRead s.motor[0].addr s

/-- Slot 2 (R203): collect left, poll right. -/
def slotPollRight (s : State) : Flow :=
  let s := process 0 (transportGetRx s).1 (transportGetRx s).2
  transportRead s.motor[1].addr s

/-- Slot 3 (R204): collect right. -/
def slotCollectRight (s : State) : Flow :=
  .go (process 1 (transportGetRx s).1 (transportGetRx s).2)

/-- Slot 4 (R207). -/
def slotRefresh (s : State) : Flow :=
  .go (s.withDesk { s.desk with current := s.motor[0].pos })

/-- Slot 9 (R209). -/
def slotCompute (m : OMode) (s : State) : Flow := .go (dsmStep m s)

/-- Slot 10 (R210). -/
def slotCommand (s : State) : Flow :=
  transportWrite s.cfg.addrBroadcast (commandPayload s.op.cmdPos s.op.cmdInstr) s

/-- Slot 11 (R211). -/
def slotIdle (s : State) : Flow := .go (s.withDesk { s.desk with busy := false })

/-- `slot_action(k)` in mode `m` (R201 to R211); slots 5 to 8 and 12 to 18 do nothing (R208, R211). -/
def slotAction (k : Nat) (m : OMode) (s : State) : Flow :=
  match k with
  | 0 => slotHeartbeat s
  | 1 => slotPollLeft s
  | 2 => slotPollRight s
  | 3 => slotCollectRight s
  | 4 => slotRefresh s
  | 9 => slotCompute m s
  | 10 => slotCommand s
  | 11 => slotIdle s
  | _ => .go s

/-- `OP.slot` after slot `k` (R200). -/
def nextSlot (c : Config) (k : BitVec 5) : BitVec 5 := if k.toNat + 1 = c.cycleLen then 0 else k + 1

/-- `operation_step()` in mode `m` (R200): the slot's action, then the slot advances. -/
def operationStep (m : OMode) (s : State) : Flow :=
  (slotAction s.op.slot.toNat m s).andThen fun s' =>
    .go (s'.withOp { s'.op with slot := nextSlot s.cfg s.op.slot })

end Sys2Proof.Machine
end

