-- ==== Sys2Proof/Machine/Tick.lean ====
section
/-! DEFINITION. TICK (41_discovery.md R160), RESET (70_reset_and_hazards.md R320) and the reserved event
kinds (30_encoding.md R85). -/

namespace Sys2Proof.Machine

/-- The tick dispatcher (R160): one controller, by the mode's class; nothing in Idle. -/
def tickBody (s : State) : Flow :=
  match s.desk.mode with
  | .idle => .go s
  | .startup S => discoveryStep S s
  | .operation m => operationStep m s

/-- TICK (R160), always enabled. -/
def execTick (s : State) : Host.Outcome State Fault Refusal := .next (tickBody s).result

/-- RESET (R320), always enabled. -/
def execReset (s : State) : Host.Outcome State Fault Refusal := .next (resetRegisters s)

/-- A reserved event kind (R85, R296): the mark REFUSED, no other effect; no step is taken after it. -/
def reservedEvent (s : State) : Host.Outcome State Fault Refusal :=
  .next (refuse .reservedEvent s).result

/-- Event kind 0x0 (R85). -/
def execReservedEvent0 (s : State) : Host.Outcome State Fault Refusal := reservedEvent s

/-- Event kinds 0x4..0x7 (R85). -/
def execReservedEvent4 (_low : BitVec 2) (s : State) : Host.Outcome State Fault Refusal :=
  reservedEvent s

/-- Event kinds 0x8..0xB (R85). -/
def execReservedEvent8 (_low : BitVec 2) (s : State) : Host.Outcome State Fault Refusal :=
  reservedEvent s

/-- Event kinds 0xC..0xD (R85). -/
def execReservedEventC (_low : BitVec 1) (s : State) : Host.Outcome State Fault Refusal :=
  reservedEvent s

/-- Event kind 0xE (R85). -/
def execReservedEventE (s : State) : Host.Outcome State Fault Refusal := reservedEvent s

end Sys2Proof.Machine
end

