-- ==== Sys2Proof/Machine/Dispatch.lean ====
section
/-! DEFINITION. The dispatch: one arm for each constructor of Instr, each one call of its meaning. -/

namespace Sys2Proof.Machine

def exec (i : Instr) (s : State) : Host.Outcome State Fault Refusal :=
  match i with
  -- host commands (43_facade.md)
  | .init enabled => Sys2Proof.Machine.execInit enabled s
  | .startDiscovery => Sys2Proof.Machine.execStartDiscovery s
  | .getBusy => Sys2Proof.Machine.execGetBusy s
  | .getMode => Sys2Proof.Machine.execGetMode s
  | .getDrift => Sys2Proof.Machine.execGetDrift s
  | .getPosition => Sys2Proof.Machine.execGetPosition s
  | .getLowerLimit => Sys2Proof.Machine.execGetLowerLimit s
  | .getUpperLimit => Sys2Proof.Machine.execGetUpperLimit s
  | .getMotorState unit => Sys2Proof.Machine.execGetMotorState unit s
  | .getMotorPosition unit => Sys2Proof.Machine.execGetMotorPosition unit s
  | .getMotorLowerLimit unit => Sys2Proof.Machine.execGetMotorLowerLimit unit s
  | .getMotorUpperLimit unit => Sys2Proof.Machine.execGetMotorUpperLimit unit s
  | .getMotorAddress unit => Sys2Proof.Machine.execGetMotorAddress unit s
  | .getMotorCapability unit => Sys2Proof.Machine.execGetMotorCapability unit s
  | .requestPosition target => Sys2Proof.Machine.execRequestPosition target s
  | .requestCalibration => Sys2Proof.Machine.execRequestCalibration s
  | .requestHalt => Sys2Proof.Machine.execRequestHalt s
  -- reserved opcodes (30_encoding.md R84)
  | .reservedOpcode00 => Sys2Proof.Machine.execReservedOpcode00 s
  | .reservedOpcode0F => Sys2Proof.Machine.execReservedOpcode0F s
  | .reservedOpcode13 => Sys2Proof.Machine.execReservedOpcode13 s
  | .reservedOpcode14 low => Sys2Proof.Machine.execReservedOpcode14 low s
  | .reservedOpcode18 low => Sys2Proof.Machine.execReservedOpcode18 low s
  | .reservedOpcode20 low => Sys2Proof.Machine.execReservedOpcode20 low s
  | .reservedOpcode40 low => Sys2Proof.Machine.execReservedOpcode40 low s
  | .reservedOpcode80 low => Sys2Proof.Machine.execReservedOpcode80 low s
  -- events (30_encoding.md R85)
  | .tick => Sys2Proof.Machine.execTick s
  | .txDone => Sys2Proof.Machine.execTxDone s
  | .rxByte b => Sys2Proof.Machine.execRxByte b s
  | .reset => Sys2Proof.Machine.execReset s
  | .reservedEvent0 => Sys2Proof.Machine.execReservedEvent0 s
  | .reservedEvent4 low => Sys2Proof.Machine.execReservedEvent4 low s
  | .reservedEvent8 low => Sys2Proof.Machine.execReservedEvent8 low s
  | .reservedEventC low => Sys2Proof.Machine.execReservedEventC low s
  | .reservedEventE => Sys2Proof.Machine.execReservedEventE s
  -- transport micro-operations (30_encoding.md R86)
  | .tWrite addr payload => Sys2Proof.Machine.execTWrite addr payload s
  | .tRead addr => Sys2Proof.Machine.execTRead addr s
  | .tGetRx => Sys2Proof.Machine.execTGetRx s

end Sys2Proof.Machine
end

