-- ==== Sys2Proof/Machine/Step.lean ====
section
/-! DEFINITION. One step: a halted state reports why it halted; otherwise the oldest input is taken and its
instruction runs as one atomic step (00_scope.md R6, R13, 20_memory.md R72). With no input the block waits
(70_reset_and_hazards.md R321). -/

namespace Sys2Proof.Machine

def step (s : State) : Host.Outcome State Fault Refusal :=
  match halted s with
  | some o => o
  | none =>
    match fetch s with
    | .none => .next s
    | .bad r => .refused r
    | .instr i s' => exec i s'

/-- `s` with the table row's word as the next input. -/
def State.withFetchWord (s : State) (nbits w : Nat) : State := placeWord s nbits w

end Sys2Proof.Machine
end

