-- ==== Sys2Proof/Laws/PerInstr.lean ====
section
/-! SUPPORT. Per-instruction families. EncodesInItsRow: the encoding of every instruction is a word of its own
row of the opcode table (30_encoding.md R80, R83 to R86). -/

namespace Sys2Proof.Laws

/-- A mask of `n` ones from bit `k` up reads the bits from `k` on. -/
theorem and_shifted_ones (x n k : Nat) :
    x &&& ((2 ^ n - 1) * 2 ^ k) = x / 2 ^ k % 2 ^ n * 2 ^ k := by
  rw [← Nat.shiftLeft_eq, ← Nat.shiftLeft_eq, ← Nat.shiftRight_eq_div_pow]
  apply Nat.eq_of_testBit_eq
  intro i
  simp only [Nat.testBit_and, Nat.testBit_shiftLeft, Nat.testBit_mod_two_pow,
    Nat.testBit_shiftRight, Nat.testBit_two_pow_sub_one]
  by_cases h : k ≤ i
  · have : k + (i - k) = i := by omega
    simp only [h, decide_true, Bool.true_and, this]
    rw [Bool.and_comm]
  · simp [h]

/-- A command word as a number. -/
theorem cmdWord_toNat (op unit : BitVec 8) (data : BitVec 16) :
    (cmdWord op unit data).toNat = op.toNat * 2 ^ 24 + unit.toNat * 2 ^ 16 + data.toNat := by
  have h2 := unit.isLt
  have h3 := data.isLt
  have e1 : (op ++ unit).toNat = op.toNat * 2 ^ 8 + unit.toNat := by
    rw [BitVec.toNat_append, Nat.shiftLeft_add_eq_or_of_lt h2 op.toNat |>.symm, Nat.shiftLeft_eq]
  have e2 : (cmdWord op unit data).toNat = (op ++ unit).toNat * 2 ^ 16 + data.toNat := by
    rw [cmdWord, BitVec.toNat_append, Nat.shiftLeft_add_eq_or_of_lt h3 _ |>.symm, Nat.shiftLeft_eq]
  rw [e2, e1]
  omega

/-- An event word as a number. -/
theorem evtWord_toNat (kind : BitVec 4) (data : BitVec 8) :
    (evtWord kind data).toNat = kind.toNat * 2 ^ 12 + data.toNat := by
  have h3 := data.isLt
  have e1 : (kind ++ (0 : BitVec 4)).toNat = kind.toNat * 2 ^ 4 := by
    rw [BitVec.toNat_append]
    simp [Nat.shiftLeft_eq]
  rw [evtWord, BitVec.toNat_append, Nat.shiftLeft_add_eq_or_of_lt h3 _ |>.symm, Nat.shiftLeft_eq, e1]
  omega

/-- The top `8 - k` opcode bits of a command word under a row's mask. -/
theorem cmdWord_and (op unit : BitVec 8) (data : BitVec 16) (k : Nat) (hk : k ≤ 8) :
    (cmdWord op unit data).toNat &&& ((2 ^ (8 - k) - 1) * 2 ^ (24 + k))
      = op.toNat / 2 ^ k * 2 ^ (24 + k) := by
  have h1 := op.isLt
  have h2 := unit.isLt
  have h3 := data.isLt
  rw [and_shifted_ones, cmdWord_toNat]
  have e : (op.toNat * 2 ^ 24 + unit.toNat * 2 ^ 16 + data.toNat) / 2 ^ (24 + k) = op.toNat / 2 ^ k := by
    rw [Nat.pow_add, ← Nat.div_div_eq_div_mul]
    congr 1
    omega
  rw [e, Nat.mod_eq_of_lt]
  rw [Nat.div_lt_iff_lt_mul (Nat.two_pow_pos k), ← Nat.pow_add]
  have : 8 - k + k = 8 := by omega
  rw [this]
  exact h1

/-- The top `4 - k` kind bits of an event word under a row's mask. -/
theorem evtWord_and (kind : BitVec 4) (data : BitVec 8) (k : Nat) (hk : k ≤ 4) :
    (evtWord kind data).toNat &&& ((2 ^ (4 - k) - 1) * 2 ^ (12 + k))
      = kind.toNat / 2 ^ k * 2 ^ (12 + k) := by
  have h1 := kind.isLt
  have h3 := data.isLt
  rw [and_shifted_ones, evtWord_toNat]
  have e : (kind.toNat * 2 ^ 12 + data.toNat) / 2 ^ (12 + k) = kind.toNat / 2 ^ k := by
    rw [Nat.pow_add, ← Nat.div_div_eq_div_mul]
    congr 1
    omega
  rw [e, Nat.mod_eq_of_lt]
  rw [Nat.div_lt_iff_lt_mul (Nat.two_pow_pos k), ← Nat.pow_add]
  have : 4 - k + k = 4 := by omega
  rw [this]
  exact h1

/-- A word with a fixed high part keeps that part above its low bits. -/
theorem append_div {m n : Nat} (hi : BitVec m) (lo : BitVec n) :
    (hi ++ lo).toNat / 2 ^ n = hi.toNat := by
  have h := lo.isLt
  rw [BitVec.toNat_append, Nat.shiftLeft_add_eq_or_of_lt h _ |>.symm, Nat.shiftLeft_eq,
    Nat.mul_comm, Nat.mul_add_div (Nat.two_pow_pos n), Nat.div_eq_of_lt h, Nat.add_zero]

/-- A command row with `8 - k` fixed opcode bits admits exactly the command words with those bits. -/
theorem admits_cmd (m : String) (op unit : BitVec 8) (data : BitVec 16) (k v : Nat) (hk : k ≤ 8)
    (hv : op.toNat / 2 ^ k = v) :
    (TableRow.mk m .cmd32 (v * 2 ^ (24 + k)) ((2 ^ (8 - k) - 1) * 2 ^ (24 + k))).admits
      (.cmd (cmdWord op unit data)) = true := by
  simp only [TableRow.admits, Input.portWord, cmdWord_and op unit data k hk, hv, decide_true,
    Bool.and_self]

/-- An event row with `4 - k` fixed kind bits admits exactly the event words with those bits. -/
theorem admits_evt (m : String) (kind : BitVec 4) (data : BitVec 8) (k v : Nat) (hk : k ≤ 4)
    (hv : kind.toNat / 2 ^ k = v) :
    (TableRow.mk m .evt16 (v * 2 ^ (12 + k)) ((2 ^ (4 - k) - 1) * 2 ^ (12 + k))).admits
      (.evt (evtWord kind data)) = true := by
  simp only [TableRow.admits, Input.portWord, evtWord_and kind data k hk, hv, decide_true,
    Bool.and_self]

namespace EncodesInItsRow

/-- The encoding is a word of the instruction's row: the row's format, and under the row's mask the row's
pattern. -/
def Statement (i : Instr) : Prop := i.row.admits (encode i) = true

theorem init (enabled : Bool) : Statement (.init enabled) := admits_cmd _ 1 _ _ 0 1 (by decide) rfl
theorem startDiscovery : Statement .startDiscovery := admits_cmd _ 2 _ _ 0 2 (by decide) rfl
theorem getBusy : Statement .getBusy := admits_cmd _ 3 _ _ 0 3 (by decide) rfl
theorem getMode : Statement .getMode := admits_cmd _ 4 _ _ 0 4 (by decide) rfl
theorem getDrift : Statement .getDrift := admits_cmd _ 5 _ _ 0 5 (by decide) rfl
theorem getPosition : Statement .getPosition := admits_cmd _ 6 _ _ 0 6 (by decide) rfl
theorem getLowerLimit : Statement .getLowerLimit := admits_cmd _ 7 _ _ 0 7 (by decide) rfl
theorem getUpperLimit : Statement .getUpperLimit := admits_cmd _ 8 _ _ 0 8 (by decide) rfl
theorem getMotorState (unit : BitVec 8) : Statement (.getMotorState unit) :=
  admits_cmd _ 9 unit _ 0 9 (by decide) rfl
theorem getMotorPosition (unit : BitVec 8) : Statement (.getMotorPosition unit) :=
  admits_cmd _ 10 unit _ 0 10 (by decide) rfl
theorem getMotorLowerLimit (unit : BitVec 8) : Statement (.getMotorLowerLimit unit) :=
  admits_cmd _ 11 unit _ 0 11 (by decide) rfl
theorem getMotorUpperLimit (unit : BitVec 8) : Statement (.getMotorUpperLimit unit) :=
  admits_cmd _ 12 unit _ 0 12 (by decide) rfl
theorem getMotorAddress (unit : BitVec 8) : Statement (.getMotorAddress unit) :=
  admits_cmd _ 13 unit _ 0 13 (by decide) rfl
theorem getMotorCapability (unit : BitVec 8) : Statement (.getMotorCapability unit) :=
  admits_cmd _ 14 unit _ 0 14 (by decide) rfl
theorem requestPosition (target : BitVec 16) : Statement (.requestPosition target) :=
  admits_cmd _ 16 _ target 0 16 (by decide) rfl
theorem requestCalibration : Statement .requestCalibration := admits_cmd _ 17 _ _ 0 17 (by decide) rfl
theorem requestHalt : Statement .requestHalt := admits_cmd _ 18 _ _ 0 18 (by decide) rfl
theorem reservedOpcode00 : Statement .reservedOpcode00 := admits_cmd _ 0 _ _ 0 0 (by decide) rfl
theorem reservedOpcode0F : Statement .reservedOpcode0F := admits_cmd _ 15 _ _ 0 15 (by decide) rfl
theorem reservedOpcode13 : Statement .reservedOpcode13 := admits_cmd _ 19 _ _ 0 19 (by decide) rfl
theorem reservedOpcode14 (low : BitVec 2) : Statement (.reservedOpcode14 low) :=
  admits_cmd _ (0x05#6 ++ low) _ _ 2 5 (by decide) (append_div _ _)
theorem reservedOpcode18 (low : BitVec 3) : Statement (.reservedOpcode18 low) :=
  admits_cmd _ (0x03#5 ++ low) _ _ 3 3 (by decide) (append_div _ _)
theorem reservedOpcode20 (low : BitVec 5) : Statement (.reservedOpcode20 low) :=
  admits_cmd _ (0x1#3 ++ low) _ _ 5 1 (by decide) (append_div _ _)
theorem reservedOpcode40 (low : BitVec 6) : Statement (.reservedOpcode40 low) :=
  admits_cmd _ (0x1#2 ++ low) _ _ 6 1 (by decide) (append_div _ _)
theorem reservedOpcode80 (low : BitVec 7) : Statement (.reservedOpcode80 low) :=
  admits_cmd _ (0x1#1 ++ low) _ _ 7 1 (by decide) (append_div _ _)
theorem tick : Statement .tick := admits_evt _ 1 _ 0 1 (by decide) rfl
theorem txDone : Statement .txDone := admits_evt _ 2 _ 0 2 (by decide) rfl
theorem rxByte (b : BitVec 8) : Statement (.rxByte b) := admits_evt _ 3 b 0 3 (by decide) rfl
theorem reset : Statement .reset := admits_evt _ 15 _ 0 15 (by decide) rfl
theorem reservedEvent0 : Statement .reservedEvent0 := admits_evt _ 0 _ 0 0 (by decide) rfl
theorem reservedEvent4 (low : BitVec 2) : Statement (.reservedEvent4 low) :=
  admits_evt _ (0x1#2 ++ low) _ 2 1 (by decide) (append_div _ _)
theorem reservedEvent8 (low : BitVec 2) : Statement (.reservedEvent8 low) :=
  admits_evt _ (0x2#2 ++ low) _ 2 2 (by decide) (append_div _ _)
theorem reservedEventC (low : BitVec 1) : Statement (.reservedEventC low) :=
  admits_evt _ (0x6#3 ++ low) _ 1 6 (by decide) (append_div _ _)
theorem reservedEventE : Statement .reservedEventE := admits_evt _ 14 _ 0 14 (by decide) rfl
theorem tWrite (addr : LinAddr) (payload : List Byte) : Statement (.tWrite addr payload) := by
  simp [Statement, Instr.row, TableRow.admits, encode, Input.portWord]
theorem tRead (addr : LinAddr) : Statement (.tRead addr) := by
  simp [Statement, Instr.row, TableRow.admits, encode, Input.portWord]
theorem tGetRx : Statement .tGetRx := by
  simp [Statement, Instr.row, TableRow.admits, encode, Input.portWord]

end EncodesInItsRow

end Sys2Proof.Laws
end

