-- ==== Sys2Proof/Safety.lean ====
section
/-! DEFINITION. What counts as a safe run, in the terms the statements use: the clean states (R50), and the
invariants the rules keep: register ranges and transport (R24 to R30, R132), sequencing registers (R21, R34 to
R37, R44 to R46), the busy flag (R42), the desk limits (R182, R323). -/

namespace Sys2Proof.Machine

/-- No fault is recorded and no refusal is marked: the premise under which a property of the block is
proved (R295, R296). -/
structure State.Clean (s : State) : Prop where
  faults : s.faults = []
  refused : s.refused = none

/-- The transport's registers stay in range and agree with one another. -/
structure TransportOk (t : Transport) : Prop where
  /-- R24. -/
  txLen : t.txLen.toNat ≤ 11
  /-- R25. -/
  txIdx : t.txIdx.toNat ≤ t.txLen.toNat
  /-- R30. -/
  rxCount : t.rxCount.toNat ≤ 9
  /-- R132: received bytes are held only while the transport listens. -/
  listening : t.rxCount.toNat ≠ 0 → t.busState = .receiving ∧ t.rxEnable = true
  /-- The receiver is open only in Receiving (R27). -/
  enabled : t.rxEnable = true → t.busState = .receiving
  /-- The echo is awaited only while the receiver is open (R28). -/
  echo : t.echoPending = true → t.rxEnable = true
  /-- While a frame is being pumped, a TX_DONE is owed (R26, R128). -/
  pumping : t.busState = .sending ∨ (t.busState = .receiving ∧ t.rxEnable = false) →
    t.txInflight = true

/-- The states of discovery that use a scan candidate: D.Scan, the Read states, D.WriteId. -/
def DMode.usesCandidate : DMode → Bool
  | .scan | .readStatus | .readUpHi | .readUpLo | .readLoHi | .readLoLo | .writeId => true
  | _ => false

/-- The six register states (R170). -/
def DMode.isRegister : DMode → Bool
  | .readStatus | .readUpHi | .readUpLo | .readLoHi | .readLoLo | .writeId => true
  | _ => false

/-- The states between D.Begin and the first scan. -/
def DMode.beforeScan : DMode → Bool
  | .ann1 | .ann2 | .pre1 | .pre2 => true
  | _ => false

/-- The states after the last probe. -/
def DMode.afterScan : DMode → Bool
  | .post1 | .post2 => true
  | _ => false

/-- The sequencing registers stay in their ranges, and the registry agrees with the counters. -/
structure SequencerOk (s : State) : Prop where
  /-- R34. -/
  cand : s.d.cand.toNat ≤ 8
  /-- A request names a candidate below 8 (R168). -/
  candInScan : ∀ S, s.desk.mode = .startup S → S.usesCandidate = true → s.d.cand.toNat < 8
  /-- After the last probe the count is 8 (R178). -/
  candAfter : ∀ S, s.desk.mode = .startup S → S.afterScan = true → s.d.cand.toNat = 8
  /-- The counters are clear from D.Begin to the first scan (R163, R167). -/
  before : ∀ S, s.desk.mode = .startup S → S.beforeScan = true →
    s.d.cand.toNat = 0 ∧ s.d.found.toNat = 0
  /-- R37. -/
  found : s.d.found.toNat ≤ 2
  /-- A register state has an identifier left to assign (R176). -/
  foundInRead : ∀ S, s.desk.mode = .startup S → S.isRegister = true → s.d.found.toNat ≤ 1
  /-- The found nodes are the valid records (R181). -/
  validCount : ∀ S, s.desk.mode = .startup S → S ≠ .begin →
    (foundNodes s).length = s.d.found.toNat
  /-- No candidate from the current one on is valid yet (R176, R178). -/
  fresh : ∀ S, s.desk.mode = .startup S → S ≠ .begin →
    ∀ k, ∀ h : k < 8, s.d.cand.toNat ≤ k → (s.node[k]'h).valid = false
  /-- R36. -/
  discT : s.d.discT.toNat ≤ 4
  /-- The count 3 is held only from an abort until D.Begin acts (R35). -/
  retry : s.d.retry.toNat = 3 → s.desk.mode = .startup .begin
  /-- R44. -/
  slot : s.op.slot.toNat ≤ 18
  /-- R45. -/
  rescueT : s.op.rescueT.toNat ≤ 22
  /-- R46. -/
  slowCnt : s.desk.mode = .operation .movingSlow → s.op.slowCnt.toNat < 3

/-- The busy flag follows the mode and the slot (R42, R253), and the bus is enabled whenever a controller
runs (R251, R127, R252). -/
structure BusyOk (s : State) : Prop where
  idle : s.desk.mode = .idle → s.desk.busy = false
  startup : ∀ S, s.desk.mode = .startup S → s.desk.busy = true
  busySlots : ∀ m, s.desk.mode = .operation m → 1 ≤ s.op.slot.toNat → s.op.slot.toNat ≤ 11 →
    s.desk.busy = true
  freeSlots : ∀ m, s.desk.mode = .operation m → 12 ≤ s.op.slot.toNat → s.desk.busy = false
  busEnabled : s.desk.mode ≠ .idle → s.t.busState ≠ .idle

/-- In operation the desk limits are the intersection of the motors' limits (R182, R323), and each motor
is polled at its assigned address (R181). -/
structure LimitsOk (s : State) : Prop where
  lower : ∀ m, s.desk.mode = .operation m →
    s.desk.lower.toNat = max s.motor[0].lower.toNat s.motor[1].lower.toNat
  upper : ∀ m, s.desk.mode = .operation m →
    s.desk.upper.toNat = min s.motor[0].upper.toNat s.motor[1].upper.toNat
  addrs : ∀ m, s.desk.mode = .operation m →
    s.motor[0].addr = s.cfg.addrMotorL ∧ s.motor[1].addr = s.cfg.addrMotorR

end Sys2Proof.Machine
end

