-- ==== Sys2Proof/Certificates/Slice0/Obligations.lean ====
section
/-! DEFINITION. The statements about the lyft_mk2 CORE. A docstring names the rules of spec/ a statement
formalises; a clause that is the model's own choice names its log entry. `s.cfg.tableValues` says that CFG has
the values 00_scope.md R7 gives; the OPEN fields stay free in every statement. -/

namespace Sys2Proof.Claims

open Machine

/-- The mode codes (30_encoding.md R98), as GET_MODE answers them. -/
def modeWord : Mode → RespWord
  | .idle => 0x00
  | .startup .begin => 0x10 | .startup .ann1 => 0x11 | .startup .ann2 => 0x12
  | .startup .pre1 => 0x13 | .startup .pre2 => 0x14 | .startup .scan => 0x15
  | .startup .readStatus => 0x16 | .startup .readUpHi => 0x17 | .startup .readUpLo => 0x18
  | .startup .readLoHi => 0x19 | .startup .readLoLo => 0x1A | .startup .writeId => 0x1B
  | .startup .post1 => 0x1C | .startup .post2 => 0x1D
  | .operation .begin => 0x20 | .operation .normal => 0x21 | .operation .announcing => 0x22
  | .operation .movingUp => 0x23 | .operation .movingDown => 0x24 | .operation .movingSlow => 0x25
  | .operation .movingStop => 0x26 | .operation .calibrating => 0x27
  | .operation .calibratingDone => 0x28 | .operation .rescue => 0x29

/-- The bits of a command word its row gives a meaning (30_encoding.md R80, R83). -/
def cmdMask : Instr → CmdWord
  | .init _ => 0xFF000001
  | .getMotorState _ | .getMotorPosition _ | .getMotorLowerLimit _ | .getMotorUpperLimit _
  | .getMotorAddress _ | .getMotorCapability _ => 0xFFFF0000
  | .requestPosition _ => 0xFF00FFFF
  | _ => 0xFF000000

/-- The bits of an event word its row gives a meaning (R85). -/
def evtMask : Instr → EvtWord
  | .rxByte _ => 0xF0FF
  | _ => 0xF000

/-- The instruction is a host command. -/
def isCommand (i : Instr) : Prop := i.row.port = .cmd32

/-- The five register reads (41_discovery.md R170): the state after, the register id, the field stored. -/
def readRow : DMode → Option (DMode × (Config → Byte) × (Byte → NodeRecord → NodeRecord))
  | .readStatus => some (.readUpHi, (·.regStatus), fun v nd => { nd with cap := v })
  | .readUpHi => some (.readUpLo, (·.regUpperHi), fun v nd => { nd with upHi := v })
  | .readUpLo => some (.readLoHi, (·.regUpperLo), fun v nd => { nd with upLo := v })
  | .readLoHi => some (.readLoLo, (·.regLowerHi), fun v nd => { nd with loHi := v })
  | .readLoLo => some (.writeId, (·.regLowerLo), fun v nd => { nd with loLo := v })
  | _ => none

/-- The states that ignore their response and the state after each (R164 to R167, R179). -/
def fixedNext : DMode → Option DMode
  | .ann1 => some .ann2
  | .ann2 => some .pre1
  | .pre1 => some .pre2
  | .pre2 => some .scan
  | .post1 => some .post2
  | _ => none

/-- The bytes a write frame puts on the wire after its BREAK (30_encoding.md R88, 40_transport.md R125), for
the sync byte and the diagnostic address of R7's table. -/
def frameBytes (a : LinAddr) (p : List Byte) : List Byte :=
  [0x55, pid a] ++ p ++ [checksum (if a = 0x3C then 0 else pid a) p]

/-- `T.tx_frame` after loading `bytes` over `old`. -/
def Loaded (bytes : List Byte) (old new : Vector Byte 11) : Prop :=
  ∀ k, ∀ h : k < 11, new[k]'h = (bytes[k]?).getD (old[k]'h)

/-- The state discovery is in one tick after its read: the evaluation tick (R161). -/
def AtEvaluation (S : DMode) (s : State) : Prop :=
  s.cfg.tableValues = true ∧ s.desk.mode = .startup S ∧ s.d.discT = 4

/-- The tick at slot `k` in mode `m` (42_operation.md R200). -/
def AtSlot (k : BitVec 5) (m : OMode) (s : State) : Prop :=
  s.cfg.tableValues = true ∧ s.desk.mode = .operation m ∧ s.op.slot = k

/-- The distance test of R214 and R260: `|x − y| ≤ STOP_DIST`. -/
def Near (c : Config) (x y : Pos) : Prop :=
  x.toNat ≤ y.toNat + c.stopDist.toNat ∧ y.toNat ≤ x.toNat + c.stopDist.toNat

/-- The registers RESET and INIT clear, but for the transport's (10_state.md R51). -/
def Cleared (t : State) : Prop :=
  (∀ k, ∀ h : k < 8, t.node[k]'h = ⟨false, 0, 0, 0, 0, 0, 0⟩)
  ∧ (∀ u, ∀ h : u < 2, t.motor[u]'h = ⟨0, 0, 0, 0, 0, 0, 0⟩)
  ∧ t.d = ⟨0, 0, 0, 0⟩
  ∧ t.desk = ⟨0, 0, 0, 0, .idle, false, false⟩
  ∧ t.op = ⟨0, 0, 0, .up, .up, 0, 0⟩

/-- The transport's registers at their reset values, but for the bus state and the symbol in flight. -/
def TransportCleared (b : BusState) (inflight : Bool) (t : Transport) : Prop :=
  (∀ k, ∀ h : k < 11, t.txFrame[k]'h = 0) ∧ (∀ k, ∀ h : k < 9, t.rxBuf[k]'h = 0)
  ∧ t.busState = b ∧ t.txLen = 0 ∧ t.txIdx = 0 ∧ t.txInflight = inflight ∧ t.rxEnable = false
  ∧ t.echoPending = false ∧ t.rxCount = 0 ∧ t.activePid = 0

/-- What neither RESET nor INIT touches (R252, R320). -/
def KeepsHistory (s t : State) : Prop :=
  t.cfg = s.cfg ∧ t.wire = s.wire ∧ t.faults = s.faults ∧ t.refused = s.refused

/-- The command of a mode in state `s` (R223's and R225's tables); Rescue's is R222's. -/
def modeCommand (s : State) : OMode → Option (Byte × Pos)
  | .begin => some (s.cfg.instrIdle, s.desk.current)
  | .normal => some (s.cfg.instrIdle, s.desk.current)
  | .announcing => some (s.cfg.instrAnnounce, s.desk.current)
  | .movingUp => some (s.cfg.instrUp, posSel .up s)
  | .movingDown => some (s.cfg.instrDown, posSel .down s)
  | .movingSlow => some (s.cfg.instrSlow, posSel s.op.moveDir s)
  | .movingStop => some (s.cfg.instrStop, posSel s.op.moveDir s)
  | .calibrating => some (s.cfg.instrCalibrate, s.desk.current)
  | .calibratingDone => some (s.cfg.instrCalibrateStop, s.desk.current)
  | .rescue => none

/-- The instruction Rescue sends at rescue-tick `r` (R222's table). -/
def RescueCommand (c : Config) (faultDir : Dir) (r : Nat) (instr : Byte) : Prop :=
  (r ≤ 2 → instr = c.instrStop)
  ∧ (3 ≤ r → r ≤ 10 → instr = if faultDir = .up then c.instrDown else c.instrUp)
  ∧ (11 ≤ r → r ≤ 14 → instr = c.instrSlow)
  ∧ (15 ≤ r → r ≤ 17 → instr = c.instrStop)
  ∧ (r = 18 → instr = c.instrAnnounce)
  ∧ (19 ≤ r → r ≤ 21 → instr = c.instrIdle)

end Sys2Proof.Claims

open Sys2Proof Sys2Proof.Machine Sys2Proof.Claims

/-! ## Encoding -/

/-- Decoding an encoded instruction gives it back, every operand at every value (R80, R83 to R86). -/
def Obligations.DecodeInvertsEncode : Prop :=
  ∀ i : Instr, decode (encode i) = .ok i

/-- Every command word and every event word decodes to the instruction of the word's meaningful bits: the
bits a command or event ignores do not change its behaviour (R80, R85; 93_implementation_defined.md U29). -/
def Obligations.IgnoredBitsHaveNoEffect : Prop :=
  (∀ w : CmdWord, encode (decodeCmd w) = .cmd (w &&& cmdMask (decodeCmd w))
    ∧ decodeCmd (w &&& cmdMask (decodeCmd w)) = decodeCmd w)
  ∧ (∀ w : EvtWord, encode (decodeEvt w) = .evt (w &&& evtMask (decodeEvt w))
    ∧ decodeEvt (w &&& evtMask (decodeEvt w)) = decodeEvt w)

/-- Each word belongs to exactly one row of the opcode table, and the decoder finds it (R83, R84, R85). -/
def Obligations.EachWordHasOneRow : Prop :=
  (∀ (w : CmdWord) (i : Instr), i.row.admits (.cmd w) = true ↔ i.row = (decodeCmd w).row)
  ∧ (∀ (w : EvtWord) (i : Instr), i.row.admits (.evt w) = true ↔ i.row = (decodeEvt w).row)

/-- Words written out from the encoding tables decode to the instructions they stand for
(95_test_vectors.md E1 to E17). -/
def Obligations.WrittenWordsDecode : Prop :=
  decodeCmd 0x01000001 = .init true ∧ decodeCmd 0x01FF0003 = .init true
  ∧ decodeCmd 0x02000000 = .startDiscovery ∧ decodeCmd 0x0A010000 = .getMotorPosition 1
  ∧ decodeCmd 0x100001F4 = .requestPosition 500 ∧ decodeCmd 0x12000000 = .requestHalt
  ∧ decodeCmd 0x0F000000 = .reservedOpcode0F ∧ decodeCmd 0xFF123456 = .reservedOpcode80 0x7F
  ∧ decodeEvt 0x1FFF = .tick ∧ decodeEvt 0x2000 = .txDone ∧ decodeEvt 0x3A7D = .rxByte 0x7D
  ∧ decodeEvt 0xF000 = .reset ∧ decodeEvt 0xE123 = .reservedEventE
  ∧ decode (.uop 0x03 0 []) = .ok .tGetRx

/-! ## The step -/

/-- In a clean state the step is the oldest input's instruction, run on the state without that input (R6,
R13; the input list is the model's, log entry 3). -/
def Obligations.StepRunsTheDecodedInput : Prop :=
  ∀ (s : State) (x : Input) (rest : List Input) (i : Instr),
    s.Clean → s.input = x :: rest → decode x = .ok i → step s = exec i (s.withInput rest)

/-- A state with a recorded fault or a refusal mark takes no further step (R295, R296); an input that is no
instruction is refused; with no input nothing changes (R321); TX_DONE with no symbol in flight is no input (R297)
and is refused. That the first fault is reported, a fault before a refusal, how the inputs wait, and the last two
refusals are the model's choices (log entries 3, 5, 6 and 14). -/
def Obligations.StepWithNothingToRun : Prop :=
  (∀ (s : State) (f : Fault) (fs : List Fault), s.faults = f :: fs → step s = .fault f)
  ∧ (∀ (s : State) (r : Refusal), s.faults = [] → s.refused = some r → step s = .refused r)
  ∧ (∀ s : State, s.Clean → s.input = [] → step s = .next s)
  ∧ (∀ (s : State) (code : BitVec 8) (a : LinAddr) (p : List Byte) (rest : List Input), s.Clean →
    s.input = .uop code a p :: rest → code ≠ 1 → code ≠ 2 → code ≠ 3 →
    step s = .refused (.unknownMicroOp code))
  ∧ (∀ s : State, s.t.txInflight = false → exec .txDone s = .refused .txDoneNotEnabled)

/-- A model refuses to start from an ill-formed CFG (R8, R296), and starts in the reset state from a
well-formed one; this hardware's CFG is well formed, and the machine's own reset state is the start it gives.
That the refusal is a mark which the first step answers is the model's reading (log entries 2 and 5). -/
def Obligations.PowerOnChecksTheConfiguration : Prop :=
  (∀ c : Config,
    (configWellFormed c = true ↔
      [c.addrMotorL, c.addrMotorR, c.addrHeartbeat, c.addrBroadcast, c.diagTxAddr,
        c.diagRxAddr].Nodup
      ∧ (c.hbPayload ≠ [] ∧ c.hbPayload.length ≤ 8) ∧ c.scanNad.toList.Nodup
      ∧ (c.beginAtLimitNext ≠ .movingUp ∧ c.beginAtLimitNext ≠ .movingDown
        ∧ c.beginAtLimitNext ≠ .movingSlow ∧ c.beginAtLimitNext ≠ .rescue)
      ∧ c.stateCalibrated ∉ c.blockedStates)
    ∧ (configWellFormed c = true → powerOn c = State.reset.withCfg c)
    ∧ (configWellFormed c = false → step (powerOn c) = .refused .configIllFormed))
  ∧ configWellFormed core.reset.cfg = true ∧ core.reset = powerOn Config.hardware

/-! ## Invariants every step keeps -/

/-- The transport's registers stay in range, and received bytes are held only while the transport listens
(R132). -/
def Obligations.StepKeepsTransportOk : Prop :=
  ∀ s t : State, s.cfg.tableValues = true → TransportOk s.t → step s = .next t → TransportOk t.t

/-- No sequencing register passes its stated range (R21, R34 to R37, R44 to R46), and the registry agrees with
the counters (R176, R178, R181). -/
def Obligations.StepKeepsSequencerOk : Prop :=
  ∀ s t : State, s.cfg.Legal → SequencerOk s → step s = .next t → SequencerOk t

/-- The busy flag follows the mode and the slot (R42, R211, R253), and a controller runs only on an enabled bus:
START_DISCOVERY is refused on an Idle one (R251), T_GETRX leaves Idle as it is and only INIT and RESET write it
(R127, R252). -/
def Obligations.StepKeepsBusyOk : Prop :=
  ∀ s t : State, BusyOk s → step s = .next t → BusyOk t

/-- In operation the desk limits are the intersection of the motors' limits, and the motors are polled at
their assigned addresses (R181, R182, R323). -/
def Obligations.StepKeepsLimitsOk : Prop :=
  ∀ s t : State, LimitsOk s → step s = .next t → LimitsOk t

/-- The reset state, with any configuration, meets all four invariants. -/
def Obligations.ResetMeetsTheInvariants : Prop :=
  ∀ c : Config, TransportOk (State.reset.withCfg c).t ∧ SequencerOk (State.reset.withCfg c)
    ∧ BusyOk (State.reset.withCfg c) ∧ LimitsOk (State.reset.withCfg c)

/-- CFG never changes (R75); an instruction appends at most one symbol to WIRE, which is then in flight (R49,
R124), adds at most one fault, and removes none; none clears the refusal mark (R50, R299). Of the model's own
fields (log entries 3 and 8), none changes the inputs, and only T_GETRX its result. -/
def Obligations.HistoryOnlyGrows : Prop :=
  ∀ (i : Instr) (s t : State), exec i s = .next t → t.cfg = s.cfg
    ∧ (t.wire = s.wire ∨ ∃ x, t.wire = s.wire ++ [x] ∧ t.t.txInflight = true)
    ∧ (t.faults = s.faults ∨ ∃ f, f ∉ s.faults ∧ t.faults = s.faults ++ [f])
    ∧ (t.refused = none → s.refused = none)
    ∧ t.input = s.input ∧ (i ≠ .tGetRx → t.uopResult = s.uopResult)

/-! ## Who changes what -/

/-- `DESK.mode` is written by INIT, START_DISCOVERY, RESET and TICK only (R40). -/
def Obligations.ModeWriters : Prop :=
  ∀ (i : Instr) (s t : State), exec i s = .next t → t.desk.mode ≠ s.desk.mode →
    i = .tick ∨ i = .reset ∨ i = .startDiscovery ∨ ∃ e, i = .init e

/-- The Operation class is entered only by the TICK that completes discovery in D.Post2, at slot 0 of a
fresh cycle (R180, R323). -/
def Obligations.OperationEnteredOnlyFromPost2 : Prop :=
  ∀ (i : Instr) (s t : State) (m : OMode), exec i s = .next t → t.desk.mode = .operation m →
    (∀ m', s.desk.mode ≠ .operation m') →
    i = .tick ∧ s.desk.mode = .startup .post2 ∧ s.d.found ≠ 0 ∧ m = .begin ∧ t.op.slot = 0

/-- Rescue is entered only by a TICK at slot 2 or 3 in a moving mode, on a valid reading whose state is
blocked; of the operation registers only the direction of travel is saved and the rescue counter cleared (the
slot advances), and of the desk registers only the mode changes (R206, R300). -/
def Obligations.RescueEntry : Prop :=
  ∀ (i : Instr) (s t : State), configWellFormed s.cfg = true → exec i s = .next t →
    s.desk.mode ≠ .operation .rescue → t.desk.mode = .operation .rescue →
    i = .tick ∧ s.desk.mode.moving = true
    ∧ t.op = { s.op with
        slot := t.op.slot
        rescueT := 0
        faultDir := if s.desk.mode = .operation .movingUp then .up
          else if s.desk.mode = .operation .movingDown then .down else s.op.moveDir }
    ∧ t.desk = { s.desk with mode := .operation .rescue }
    ∧ ((s.op.slot = 2 ∧ t.motor[0].state ∈ s.cfg.blockedStates ∧ t.motor[0].outage = 0)
      ∨ (s.op.slot = 3 ∧ t.motor[1].state ∈ s.cfg.blockedStates ∧ t.motor[1].outage = 0))

/-- Rescue is left only by INIT, by RESET, by START_DISCOVERY while not busy, or at rescue-tick 22 to O.Normal
with the target snapped (R301). -/
def Obligations.RescueExit : Prop :=
  ∀ (i : Instr) (s t : State), s.cfg.tableValues = true → exec i s = .next t →
    s.desk.mode = .operation .rescue → t.desk.mode ≠ .operation .rescue →
    (∃ e, i = .init e) ∨ i = .reset ∨ (i = .startDiscovery ∧ s.desk.busy = false)
    ∨ (i = .tick ∧ s.op.slot = 9 ∧ s.op.rescueT = 22 ∧ t.desk.mode = .operation .normal
      ∧ t.desk.target = s.desk.current)

/-- A host command other than INIT leaves the transport, WIRE, the registry and the operation registers as
they are: a frame in flight is never aborted by a change of mode (R77). That it leaves the micro-operation
result and the inputs is the model's choice (log entries 8 and 3). -/
def Obligations.CommandFrame : Prop :=
  ∀ (i : Instr) (s t : State), isCommand i → (∀ e, i ≠ .init e) → exec i s = .next t →
    t.t = s.t ∧ t.wire = s.wire ∧ t.node = s.node ∧ t.motor = s.motor ∧ t.op = s.op ∧ t.cfg = s.cfg
    ∧ t.faults = s.faults ∧ t.refused = s.refused ∧ t.uopResult = s.uopResult ∧ t.input = s.input
    ∧ t.d.cand = s.d.cand ∧ t.d.retry = s.d.retry ∧ t.d.found = s.d.found
    ∧ t.desk.lower = s.desk.lower ∧ t.desk.upper = s.desk.upper ∧ t.desk.current = s.desk.current

/-- The byte pump and the micro-operations touch transport state only (R77, R125 to R129). That they leave the
response port, the inputs and, but for T_GETRX, the micro-operation result is the model's choice (log entries 7,
3 and 8). -/
def Obligations.TransportFrame : Prop :=
  ∀ (i : Instr) (s t : State),
    i = .txDone ∨ (∃ b, i = .rxByte b) ∨ (∃ a p, i = .tWrite a p) ∨ (∃ a, i = .tRead a) ∨ i = .tGetRx →
    exec i s = .next t →
    t.node = s.node ∧ t.motor = s.motor ∧ t.d = s.d ∧ t.desk = s.desk ∧ t.op = s.op ∧ t.cfg = s.cfg
    ∧ t.resp = s.resp ∧ t.input = s.input ∧ (i ≠ .tGetRx → t.uopResult = s.uopResult)

/-- A TICK leaves CFG, the response port, the micro-operation result and the inputs as they are; in the
Idle class it changes nothing, in the Startup class it leaves the desk's positions and flags and the operation's
command alone, in the Operation class it leaves discovery's registers and the desk limits alone (R160, R75, and
the Flags of the rules of 41_discovery.md and 42_operation.md). That it leaves the response port, the
micro-operation result and the inputs is the model's choice (log entries 7, 8 and 3). -/
def Obligations.TickFrame : Prop :=
  ∀ s t : State, exec .tick s = .next t →
    t.cfg = s.cfg ∧ t.resp = s.resp ∧ t.uopResult = s.uopResult ∧ t.input = s.input
    ∧ (s.desk.mode = .idle → t = s)
    ∧ ((∃ S, s.desk.mode = .startup S) → t.desk.current = s.desk.current
      ∧ t.desk.target = s.desk.target ∧ t.desk.calibReq = s.desk.calibReq ∧ t.desk.busy = s.desk.busy
      ∧ t.op = { s.op with slot := t.op.slot })
    ∧ ((∃ m, s.desk.mode = .operation m) → t.d = s.d ∧ t.node = s.node
      ∧ t.desk.lower = s.desk.lower ∧ t.desk.upper = s.desk.upper
      ∧ ∃ m, t.desk.mode = .operation m)

/-! ## The host port -/

/-- Every host command returns one response word in the same step, with zero in bits 23..16 and a result
code of at most 7; no other input changes the response (R81, R82; that RESP holds its word until the next
command is the model's choice, log entry 7). -/
def Obligations.EveryCommandResponds : Prop :=
  (∀ (i : Instr) (s : State), isCommand i →
    ∃ t r, exec i s = .next t ∧ t.resp = some r ∧ r.extractLsb' 16 8 = 0
      ∧ (r.extractLsb' 24 8).toNat ≤ 7)
  ∧ (∀ (i : Instr) (s t : State), ¬ isCommand i → exec i s = .next t → t.resp = s.resp)

/-- A refused request changes no register: only the response is written (R294). -/
def Obligations.RefusedRequestsChangeNothing : Prop :=
  ∀ (i : Instr) (s t : State) (r : RespWord), isCommand i → exec i s = .next t → t.resp = some r →
    r.extractLsb' 24 8 ≠ 0 → t = s.withResp (some r)

/-- INIT (R252): the reset values but for the symbol in flight, the transport Ready or Idle, response
OK. -/
def Obligations.InitResult : Prop :=
  ∀ (e : Bool) (s : State), ∃ t, exec (.init e) s = .next t ∧ Cleared t
    ∧ TransportCleared (if e = true then .ready else .idle) s.t.txInflight t.t
    ∧ KeepsHistory s t ∧ t.resp = some 0x00000000

/-- RESET (R320): every register at its reset value, the symbol in flight abandoned; WIRE, FAULTS and
REFUSED stand. -/
def Obligations.ResetResult : Prop :=
  ∀ s : State, ∃ t, exec .reset s = .next t ∧ Cleared t ∧ TransportCleared .idle false t.t
    ∧ KeepsHistory s t

/-- START_DISCOVERY (R251). -/
def Obligations.StartDiscoveryResult : Prop :=
  ∀ s : State, exec .startDiscovery s = .next (
    if s.t.busState = .idle then s.withResp (some 0x03000000)
    else if s.desk.busy = true then s.withResp (some 0x02000000)
    else { s with
      desk := { s.desk with mode := .startup .begin, busy := true }
      d := { s.d with discT := 0 }
      resp := some 0x00000000 })

/-- The desk queries GET_BUSY, GET_MODE, GET_POSITION, GET_LOWER_LIMIT, GET_UPPER_LIMIT answer OK with their
register and change nothing else (R253, R254, R256, R257, R258), the mode by R98's code; GET_DRIFT answers the absolute difference of
the two motors' last known positions, whatever their outage counts (R226, R255). -/
def Obligations.DeskQueryResults : Prop :=
  ∀ s : State,
    exec .getBusy s = .next (s.withResp (some (if s.desk.busy = true then 1 else 0)))
    ∧ exec .getMode s = .next (s.withResp (some (modeWord s.desk.mode)))
    ∧ exec .getPosition s = .next (s.withResp (some (s.desk.current.setWidth 32)))
    ∧ exec .getLowerLimit s = .next (s.withResp (some (s.desk.lower.setWidth 32)))
    ∧ exec .getUpperLimit s = .next (s.withResp (some (s.desk.upper.setWidth 32)))
    ∧ ∃ v : BitVec 16, exec .getDrift s = .next (s.withResp (some (v.setWidth 32)))
      ∧ v.toNat = max s.motor[0].pos.toNat s.motor[1].pos.toNat
        - min s.motor[0].pos.toNat s.motor[1].pos.toNat

/-- The GET_MOTOR_* commands: the field of MOTOR[u] for u = 0 or 1, the sentinel 0xFF or 0xFFFF for any
other unit, always with OK, changing nothing else (R259, R265 to R270). -/
def Obligations.MotorQueryResults : Prop :=
  ∀ (u : BitVec 8) (s : State), s.cfg.tableValues = true →
    (∀ k, ∀ h : k < 2, u.toNat = k →
      exec (.getMotorState u) s = .next (s.withResp (some ((s.motor[k]'h).state.setWidth 32)))
      ∧ exec (.getMotorPosition u) s = .next (s.withResp (some ((s.motor[k]'h).pos.setWidth 32)))
      ∧ exec (.getMotorLowerLimit u) s = .next (s.withResp (some ((s.motor[k]'h).lower.setWidth 32)))
      ∧ exec (.getMotorUpperLimit u) s = .next (s.withResp (some ((s.motor[k]'h).upper.setWidth 32)))
      ∧ exec (.getMotorAddress u) s = .next (s.withResp (some ((s.motor[k]'h).addr.setWidth 32)))
      ∧ exec (.getMotorCapability u) s = .next (s.withResp (some ((s.motor[k]'h).cap.setWidth 32))))
    ∧ (2 ≤ u.toNat →
      exec (.getMotorState u) s = .next (s.withResp (some 0x000000FF))
      ∧ exec (.getMotorPosition u) s = .next (s.withResp (some 0x0000FFFF))
      ∧ exec (.getMotorLowerLimit u) s = .next (s.withResp (some 0x0000FFFF))
      ∧ exec (.getMotorUpperLimit u) s = .next (s.withResp (some 0x0000FFFF))
      ∧ exec (.getMotorAddress u) s = .next (s.withResp (some 0x000000FF))
      ∧ exec (.getMotorCapability u) s = .next (s.withResp (some 0x000000FF)))

open Classical in
/-- REQUEST_POSITION (R260): busy, class, mode, upper limit, lower limit, distance, in that order; the
target is written only on OK. -/
def Obligations.RequestPositionResult : Prop :=
  ∀ (t : BitVec 16) (s : State), exec (.requestPosition t) s = .next (
    if s.desk.busy = true then s.withResp (some 0x02000000)
    else if ∀ m, s.desk.mode ≠ .operation m then s.withResp (some 0x03000000)
    else if s.desk.mode ≠ .operation .normal then s.withResp (some 0x01000000)
    else if s.desk.upper.toNat < t.toNat then s.withResp (some 0x05000000)
    else if t.toNat < s.desk.lower.toNat then s.withResp (some 0x06000000)
    else if Near s.cfg t s.desk.current then s.withResp (some 0x07000000)
    else { s with desk := { s.desk with target := t }, resp := some 0x00000000 })

open Classical in
/-- REQUEST_CALIBRATION (R263): busy, class, mode, then the flag. REQUEST_HALT (R264): the target is snapped to
the current position, in every mode, busy or not. -/
def Obligations.RequestCalibrationAndHaltResult : Prop :=
  ∀ s : State, exec .requestCalibration s = .next (
    if s.desk.busy = true then s.withResp (some 0x02000000)
    else if ∀ m, s.desk.mode ≠ .operation m then s.withResp (some 0x03000000)
    else if s.desk.mode ≠ .operation .normal then s.withResp (some 0x01000000)
    else { s with desk := { s.desk with calibReq := true }, resp := some 0x00000000 })
    ∧ exec .requestHalt s = .next
      { s with desk := { s.desk with target := s.desk.current }, resp := some 0x00000000 }

/-- A command word with a reserved opcode answers INVALID_DATA and changes no register (R84, R271): as a
word, and for each of the eight rows. -/
def Obligations.ReservedOpcodesAnswerInvalidData : Prop :=
  (∀ (w : CmdWord) (s : State),
    (w.extractLsb' 24 8 = 0x00 ∨ w.extractLsb' 24 8 = 0x0F ∨ 0x13 ≤ (w.extractLsb' 24 8).toNat) →
    exec (decodeCmd w) s = .next (s.withResp (some 0x04000000)))
  ∧ (∀ (i : Instr) (s : State),
    i = .reservedOpcode00 ∨ i = .reservedOpcode0F ∨ i = .reservedOpcode13
      ∨ (∃ k, i = .reservedOpcode14 k) ∨ (∃ k, i = .reservedOpcode18 k) ∨ (∃ k, i = .reservedOpcode20 k)
      ∨ (∃ k, i = .reservedOpcode40 k) ∨ (∃ k, i = .reservedOpcode80 k) →
    exec i s = .next (s.withResp (some 0x04000000)))

/-- An event word of kind 0x0 or 0x4..0xE sets the refusal mark and has no other effect (R85, R296): as a
word, and for each of the five rows. -/
def Obligations.ReservedEventsAreRefused : Prop :=
  (∀ (w : EvtWord) (s : State),
    (w.extractLsb' 12 4 = 0x0
      ∨ (0x4 ≤ (w.extractLsb' 12 4).toNat ∧ (w.extractLsb' 12 4).toNat ≤ 0xE)) →
    exec (decodeEvt w) s = .next (s.withRefused (some .reservedEvent)))
  ∧ (∀ (i : Instr) (s : State),
    i = .reservedEvent0 ∨ (∃ k, i = .reservedEvent4 k) ∨ (∃ k, i = .reservedEvent8 k)
      ∨ (∃ k, i = .reservedEventC k) ∨ i = .reservedEventE →
    exec i s = .next (s.withRefused (some .reservedEvent)))

/-! ## Transport -/

/-- The protected identifier: the address in bits 5..0, the parity bits above it (R90, R120, R121); it is
injective. -/
def Obligations.ProtectedIdentifier : Prop :=
  (∀ a : LinAddr, (pid a).extractLsb' 0 6 = a
    ∧ (pid a).getLsbD 6 = (a.getLsbD 0 ^^ a.getLsbD 1 ^^ a.getLsbD 2 ^^ a.getLsbD 4)
    ∧ (pid a).getLsbD 7 = !(a.getLsbD 1 ^^ a.getLsbD 3 ^^ a.getLsbD 4 ^^ a.getLsbD 5))
  ∧ (∀ a b : LinAddr, pid a = pid b → a = b)

/-- The LIN sum is the sum of seed and bytes modulo 255, in 1..255 unless seed and bytes are all zero
(R122). -/
def Obligations.LinSumIsModulo255 : Prop :=
  ∀ (seed : Byte) (bs : List Byte),
    (linSum seed bs).toNat % 255 = (seed.toNat + (bs.map (·.toNat)).sum) % 255
    ∧ (linSum seed bs = 0 ↔ seed = 0 ∧ ∀ b ∈ bs, b = 0)

/-- The checksum is the one's complement of the sum; summing it in gives 0xFF; and a frame checksummed with
the wrong variant never validates (R123). -/
def Obligations.ChecksumValidates : Prop :=
  (∀ (seed : Byte) (bs : List Byte),
    (checksum seed bs).toNat = 255 - (linSum seed bs).toNat
    ∧ linSum seed (bs ++ [checksum seed bs]) = 0xFF)
  ∧ (∀ (a : LinAddr) (bs : List Byte), checksum 0 bs ≠ checksum (pid a) bs)

/-- T_WRITE (R125): too long a payload is refused; outside Ready or without payload it is ignored; else
the frame is loaded and its BREAK emitted, or TxOverrun is raised with the frame loaded. -/
def Obligations.TransportWriteResult : Prop :=
  ∀ (a : LinAddr) (p : List Byte) (s : State), s.cfg.tableValues = true →
    (8 < p.length → exec (.tWrite a p) s = .next (s.withRefused (some .writeTooLong)))
    ∧ (p.length ≤ 8 → s.t.busState ≠ .ready ∨ p = [] → exec (.tWrite a p) s = .next s)
    ∧ (p.length ≤ 8 → s.t.busState = .ready → p ≠ [] →
      ∃ frame, Loaded (frameBytes a p) s.t.txFrame frame ∧
        (s.t.txInflight = false → exec (.tWrite a p) s = .next { s with
          t := { s.t with
            txFrame := frame, txLen := BitVec.ofNat 4 (p.length + 3), txIdx := 0,
            activePid := pid a, busState := .sending, txInflight := true }
          wire := s.wire ++ [.brk] })
        ∧ (s.t.txInflight = true → .txOverrun ∉ s.faults → exec (.tWrite a p) s = .next { s with
          t := { s.t with
            txFrame := frame, txLen := BitVec.ofNat 4 (p.length + 3), txIdx := 0,
            activePid := pid a, busState := .sending }
          faults := s.faults ++ [.txOverrun] }))

/-- T_READ (R126): outside Ready it is ignored; else the header is loaded, the receiver closed and the BREAK
emitted, or TxOverrun is raised. -/
def Obligations.TransportReadResult : Prop :=
  ∀ (a : LinAddr) (s : State), s.cfg.tableValues = true →
    (s.t.busState ≠ .ready → exec (.tRead a) s = .next s)
    ∧ (s.t.busState = .ready →
      ∃ frame, Loaded [0x55, pid a] s.t.txFrame frame ∧
        (s.t.txInflight = false → exec (.tRead a) s = .next { s with
          t := { s.t with
            txFrame := frame, txLen := 2, txIdx := 0, activePid := pid a, rxEnable := false,
            echoPending := false, busState := .receiving, txInflight := true }
          wire := s.wire ++ [.brk] })
        ∧ (s.t.txInflight = true → .txOverrun ∉ s.faults → exec (.tRead a) s = .next { s with
          t := { s.t with
            txFrame := frame, txLen := 2, txIdx := 0, activePid := pid a, rxEnable := false,
            echoPending := false, busState := .receiving }
          faults := s.faults ++ [.txOverrun] }))

/-- T_GETRX (R127): in Idle it returns nothing and changes nothing; else it closes the reception whatever was
received, and returns the bytes before the last when at least two came and the last is their checksum. That
the result of a traced T_GETRX is held in a field is the model's choice (log entry 8). -/
def Obligations.TransportGetRxResult : Prop :=
  ∀ s : State, s.cfg.tableValues = true → s.t.rxCount.toNat ≤ 9 →
    (s.t.busState = .idle → exec .tGetRx s = .next (s.withUopResult (some [])))
    ∧ (s.t.busState ≠ .idle → ∃ r, exec .tGetRx s = .next { s with
        t := { s.t with busState := .ready, rxCount := 0, rxEnable := false, echoPending := false }
        uopResult := some r }
      ∧ (s.t.rxCount.toNat < 2 → r = [])
      ∧ (∀ n, ∀ h : n < 9, 1 ≤ n → s.t.rxCount.toNat = n + 1 →
        (s.t.rxBuf[n]'h = checksum (if s.t.activePid = 0x7D then 0 else s.t.activePid)
            (s.t.rxBuf.toList.take n) → r = s.t.rxBuf.toList.take n)
        ∧ (s.t.rxBuf[n]'h ≠ checksum (if s.t.activePid = 0x7D then 0 else s.t.activePid)
            (s.t.rxBuf.toList.take n) → r = [])))

/-- TX_DONE (R128), enabled only while a symbol is in flight (R297): it emits the next byte of the frame, closes
a write frame, opens the receiver after a header, or does nothing more. -/
def Obligations.TxDoneResult : Prop :=
  ∀ s : State, s.t.txInflight = true →
      (∀ k, ∀ h : k < 11, s.t.txIdx.toNat = k → k < s.t.txLen.toNat →
        s.t.busState = .sending ∨ (s.t.busState = .receiving ∧ s.t.rxEnable = false) →
        exec .txDone s = .next { s with
          t := { s.t with txIdx := BitVec.ofNat 4 (k + 1) }
          wire := s.wire ++ [.byte (s.t.txFrame[k]'h)] })
      ∧ (s.t.txLen.toNat ≤ s.t.txIdx.toNat → s.t.busState = .sending →
        exec .txDone s = .next { s with t := { s.t with txInflight := false, busState := .ready } })
      ∧ (s.t.txLen.toNat ≤ s.t.txIdx.toNat → s.t.busState = .receiving → s.t.rxEnable = false →
        exec .txDone s = .next { s with
          t := { s.t with txInflight := false, rxEnable := true, echoPending := true } })
      ∧ (s.t.busState = .idle ∨ s.t.busState = .ready
          ∨ (s.t.busState = .receiving ∧ s.t.rxEnable = true) →
        exec .txDone s = .next { s with t := { s.t with txInflight := false } })

/-- RX_BYTE (R129): dropped unless listening; the first byte equal to the PID is the echo; a tenth byte is
RxOverflow; any other is appended. -/
def Obligations.RxByteResult : Prop :=
  ∀ (b : Byte) (s : State), s.cfg.tableValues = true →
    (s.t.busState ≠ .receiving ∨ s.t.rxEnable = false → exec (.rxByte b) s = .next s)
    ∧ (s.t.busState = .receiving → s.t.rxEnable = true →
      (s.t.echoPending = true → b = s.t.activePid →
        exec (.rxByte b) s = .next { s with t := { s.t with echoPending := false } })
      ∧ (s.t.echoPending = false ∨ b ≠ s.t.activePid →
        (s.t.rxCount = 9 → .rxOverflow ∉ s.faults →
          exec (.rxByte b) s = .next { s with faults := s.faults ++ [.rxOverflow] })
        ∧ (∀ k, ∀ h : k < 9, s.t.rxCount.toNat = k →
          exec (.rxByte b) s = .next { s with
            t := { s.t with rxBuf := s.t.rxBuf.set k b h, rxCount := BitVec.ofNat 4 (k + 1) } })))

/-- From Ready with nothing in flight, T_WRITE of `n` bytes followed by `n + 4` TX_DONEs puts exactly the
`n + 4` symbols of the frame on WIRE and ends in Ready (R88, R133). That a micro-operation record and the events
stand in an input list is the model's choice (log entries 3 and 4). -/
def Obligations.WriteFrameReachesTheWire : Prop :=
  ∀ (a : LinAddr) (p : List Byte) (s : State), s.cfg.tableValues = true → s.Clean →
    s.t.busState = .ready → s.t.txInflight = false → p ≠ [] → p.length ≤ 8 →
    s.input = .uop 0x01 a p :: List.replicate (p.length + 4) (.evt 0x2000) →
    ∃ t, core.run (p.length + 5) s = .next t
      ∧ t.wire = s.wire ++ .brk :: (frameBytes a p).map .byte
      ∧ t.t.busState = .ready ∧ t.t.txInflight = false ∧ t.Clean ∧ t.input = []

/-- A read answered on the bus: T_READ, its header's three TX_DONEs, the echo of the PID, the payload `r`
and its checksum; T_GETRX then returns `r`, for 1 to 8 bytes, and the header is the three symbols BREAK, sync,
PID (R89, R133). The input list, the micro-operation records in it and the field that holds the result are the
model's choice (log entries 3, 4 and 8). -/
def Obligations.ResponseRoundTrip : Prop :=
  ∀ (a : LinAddr) (r : List Byte) (s : State), s.cfg.tableValues = true → s.Clean →
    s.t.busState = .ready → s.t.txInflight = false → s.t.rxCount = 0 → r ≠ [] → r.length ≤ 8 →
    s.input = .uop 0x02 a [] :: .evt 0x2000 :: .evt 0x2000 :: .evt 0x2000
      :: ((pid a :: r ++ [checksum (if a = 0x3D then 0 else pid a) r]).map fun b => encode (.rxByte b))
      ++ [.uop 0x03 0 []] →
    ∃ t, core.run (r.length + 7) s = .next t ∧ t.uopResult = some r
      ∧ t.wire = s.wire ++ [.brk, .byte 0x55, .byte (pid a)]
      ∧ t.t.busState = .ready ∧ t.t.txInflight = false ∧ t.Clean ∧ t.input = []

/-! ## Discovery -/

/-- The request payloads (R92, R168): 8 bytes, the candidate's node address first, filler 0xFF. -/
def Obligations.DiscoveryRequests : Prop :=
  ∀ (c : Config) (d : Discovery) (k : Nat) (h : k < 8), c.tableValues = true → d.cand.toNat = k →
    (∀ S, S ≠ .begin → (request c d S).length = 8)
    ∧ request c d .scan = [c.scanNad[k]'h, c.subScan] ++ List.replicate 6 0xFF
    ∧ (∀ S next reg store, readRow S = some (next, reg, store) →
      request c d S = [c.scanNad[k]'h, c.subRead, reg c] ++ List.replicate 5 0xFF)
    ∧ (d.found = 0 → request c d .writeId
      = [c.scanNad[k]'h, c.subWrite, c.regIdent, c.addrMotorL.setWidth 8] ++ List.replicate 4 0xFF)
    ∧ (d.found = 1 → request c d .writeId
      = [c.scanNad[k]'h, c.subWrite, c.regIdent, c.addrMotorR.setWidth 8] ++ List.replicate 4 0xFF)
    ∧ request c d .ann1 = c.diagFrameAnn1.toList ∧ request c d .ann2 = c.diagFrameAnn2.toList
    ∧ request c d .pre1 = c.diagFramePre1.toList ∧ request c d .pre2 = c.diagFramePre2.toList
    ∧ request c d .post1 = c.diagFramePost1.toList ∧ request c d .post2 = c.diagFramePost2.toList

/-- D.Begin (R163): two ticks of hold, then the counters and the NodeRecords are cleared and D.Ann1 is
entered, with no frame. -/
def Obligations.DiscoveryBegins : Prop :=
  ∀ s : State, s.cfg.tableValues = true → s.desk.mode = .startup .begin →
    (s.d.discT.toNat < 2 → exec .tick s = .next { s with d := { s.d with discT := s.d.discT + 1 } })
    ∧ (2 ≤ s.d.discT.toNat → exec .tick s = .next { s with
        d := ⟨0, 0, 0, 0⟩
        node := Vector.replicate 8 ⟨false, 0, 0, 0, 0, 0, 0⟩
        desk := { s.desk with mode := .startup .ann1 } })

/-- The schedule of the other states (R161): two ticks of hold, then T_WRITE of the request, then T_READ of
the diagnostic-receive address, each with the effect the micro-operation has alone, and the tick counted unless
the step ended in it. -/
def Obligations.DiscoverySchedule : Prop :=
  ∀ (S : DMode) (s : State), s.cfg.tableValues = true → s.Clean → s.desk.mode = .startup S → S ≠ .begin →
    (s.d.discT.toNat < 2 → exec .tick s = .next { s with d := { s.d with discT := s.d.discT + 1 } })
    ∧ (s.d.discT = 2 → ∃ u, exec (.tWrite 0x3C (request s.cfg s.d S)) s = .next u
      ∧ (u.Clean → exec .tick s = .next { u with d := { u.d with discT := 3 } })
      ∧ (¬ u.Clean → exec .tick s = .next u))
    ∧ (s.d.discT = 3 → ∃ u, exec (.tRead 0x3D) s = .next u
      ∧ (u.Clean → exec .tick s = .next { u with d := { u.d with discT := 4 } })
      ∧ (¬ u.Clean → exec .tick s = .next u))

/-- The states D.Ann1, D.Ann2, D.Pre1, D.Pre2, D.Post1 go on whatever the response was (R164 to R167,
R179). -/
def Obligations.FixedFramesIgnoreTheResponse : Prop :=
  ∀ (S next : DMode) (s : State), AtEvaluation S s → fixedNext S = some next →
    ∃ u, exec .tGetRx s = .next u ∧ exec .tick s = .next { u with
      uopResult := s.uopResult
      d := { u.d with discT := 0 }
      desk := { u.desk with mode := .startup next } }

/-- D.Scan (R169, R178): a response goes to D.ReadStatus, or is ExtraNode when two nodes are found; none
advances the candidate, to D.Post1 after the eighth. -/
def Obligations.ScanResult : Prop :=
  ∀ s : State, AtEvaluation .scan s →
    ∃ u r, exec .tGetRx s = .next u ∧ u.uopResult = some r
      ∧ (r ≠ [] → s.d.found ≠ 2 → exec .tick s = .next { u with
          uopResult := s.uopResult
          d := { u.d with retry := 0, discT := 0 }
          desk := { u.desk with mode := .startup .readStatus } })
      ∧ (r ≠ [] → s.d.found = 2 → .extraNode ∉ s.faults → exec .tick s = .next { u with
          uopResult := s.uopResult
          faults := u.faults ++ [.extraNode] })
      ∧ (r = [] → s.d.cand.toNat < 7 → exec .tick s = .next { u with
          uopResult := s.uopResult
          d := { u.d with cand := u.d.cand + 1, discT := 0 }
          desk := { u.desk with mode := .startup .scan } })
      ∧ (r = [] → s.d.cand = 7 → exec .tick s = .next { u with
          uopResult := s.uopResult
          d := { u.d with cand := 8, discT := 0 }
          desk := { u.desk with mode := .startup .post1 } })

/-- The five register reads (R170 to R175, R177): a response of at least 4 bytes that echoes the register id is
stored in the candidate's record and clears the retry count; any other is retried, and the third in a row
aborts to D.Begin. -/
def Obligations.RegisterReadResult : Prop :=
  ∀ (S next : DMode) (reg : Config → Byte) (store : Byte → NodeRecord → NodeRecord) (s : State) (k : Nat)
    (h : k < 8), AtEvaluation S s → readRow S = some (next, reg, store) → s.d.cand.toNat = k →
    ∃ u r, exec .tGetRx s = .next u ∧ u.uopResult = some r
      ∧ (∀ v, r[2]? = some (reg s.cfg) → r[3]? = some v → exec .tick s = .next { u with
          uopResult := s.uopResult
          node := u.node.set k (store v (u.node[k]'h)) h
          d := { u.d with retry := 0, discT := 0 }
          desk := { u.desk with mode := .startup next } })
      ∧ (r.length < 4 ∨ r[2]? ≠ some (reg s.cfg) →
        (s.d.retry.toNat < 2 → exec .tick s = .next { u with
          uopResult := s.uopResult
          d := { u.d with retry := u.d.retry + 1, discT := 0 } })
        ∧ (s.d.retry = 2 → exec .tick s = .next { u with
          uopResult := s.uopResult
          d := { u.d with retry := 3, discT := 0 }
          desk := { u.desk with mode := .startup .begin } }))

/-- D.WriteId (R176, R177, R178): a valid echo gives the node the next logical identifier, left first, and
goes to the next candidate or, after the eighth, to D.Post1; the echoed value is not examined; an invalid
response is retried as in the register reads. -/
def Obligations.WriteIdentifierResult : Prop :=
  ∀ (s : State) (k : Nat) (h : k < 8), AtEvaluation .writeId s → s.d.cand.toNat = k →
    s.d.found.toNat ≤ 1 →
    ∃ u r, exec .tGetRx s = .next u ∧ u.uopResult = some r
      ∧ (4 ≤ r.length → r[2]? = some s.cfg.regIdent → exec .tick s = .next { u with
          uopResult := s.uopResult
          node := u.node.set k { u.node[k]'h with
            ident := if s.d.found = 0 then s.cfg.addrMotorL else s.cfg.addrMotorR, valid := true } h
          d := ⟨BitVec.ofNat 4 (k + 1), 0, 0, s.d.found + 1⟩
          desk := { u.desk with mode := .startup (if k = 7 then .post1 else .scan) } })
      ∧ (r.length < 4 ∨ r[2]? ≠ some s.cfg.regIdent →
        (s.d.retry.toNat < 2 → exec .tick s = .next { u with
          uopResult := s.uopResult
          d := { u.d with retry := u.d.retry + 1, discT := 0 } })
        ∧ (s.d.retry = 2 → exec .tick s = .next { u with
          uopResult := s.uopResult
          d := { u.d with retry := 3, discT := 0 }
          desk := { u.desk with mode := .startup .begin } }))

/-- D.Post2 (R180): with no node found the scan starts again at candidate 0; else O.Begin at slot 0, with
MotorRecords built from the valid NodeRecords in candidate order (R181: big-endian limits, zeros for a missing
second node) and the desk limits their intersection (R182). -/
def Obligations.DiscoveryCompletes : Prop :=
  ∀ s : State, AtEvaluation .post2 s →
    ∃ u, exec .tGetRx s = .next u
      ∧ (s.d.found = 0 → exec .tick s = .next { u with
          uopResult := s.uopResult
          d := { u.d with cand := 0, discT := 0 }
          desk := { u.desk with mode := .startup .scan } })
      ∧ (s.d.found ≠ 0 → ∀ n0 rest, s.node.toList.filter (·.valid) = n0 :: rest →
        ∃ t, exec .tick s = .next t
          ∧ t = { u with
              uopResult := s.uopResult
              motor := t.motor
              d := { u.d with discT := 0 }
              op := { u.op with slot := 0 }
              desk := { u.desk with
                mode := .operation .begin, lower := t.desk.lower, upper := t.desk.upper } }
          ∧ t.motor[0] = ⟨s.cfg.addrMotorL, 0, 0, n0.cap, 0, n0.loHi ++ n0.loLo, n0.upHi ++ n0.upLo⟩
          ∧ (rest = [] → t.motor[1] = ⟨s.cfg.addrMotorR, 0, 0, 0, 0, 0, 0⟩)
          ∧ (∀ n1 more, rest = n1 :: more → t.motor[1]
            = ⟨s.cfg.addrMotorR, 0, 0, n1.cap, 0, n1.loHi ++ n1.loLo, n1.upHi ++ n1.upLo⟩)
          ∧ t.desk.lower.toNat = max t.motor[0].lower.toNat t.motor[1].lower.toNat
          ∧ t.desk.upper.toNat = min t.motor[0].upper.toNat t.motor[1].upper.toNat)

/-! ## Operation -/

/-- Slot 4 mirrors the left motor's position (R207), slot 11 frees the bus (R211); slots 5 to 8 and 12 to 18
do nothing but advance the slot, which wraps from 18 to 0 (R200, R208, R211). -/
def Obligations.QuietSlots : Prop :=
  ∀ (k : BitVec 5) (m : OMode) (s : State), AtSlot k m s →
    (k = 4 → exec .tick s = .next { s with
      desk := { s.desk with current := s.motor[0].pos }, op := { s.op with slot := 5 } })
    ∧ (k = 11 → exec .tick s = .next { s with
      desk := { s.desk with busy := false }, op := { s.op with slot := 12 } })
    ∧ ((5 ≤ k.toNat ∧ k.toNat ≤ 8) ∨ (12 ≤ k.toNat ∧ k.toNat ≤ 18) →
      exec .tick s = .next { s with op := { s.op with slot := if k = 18 then 0 else k + 1 } })

/-- Slots 0, 1 and 10 send: the heartbeat after setting busy (R201), the left motor's header (R202), the motor
command (R210, R94), each with the effect the micro-operation has alone; the slot advances unless the step ended
in it. -/
def Obligations.SendingSlots : Prop :=
  ∀ (k : BitVec 5) (m : OMode) (s s' : State) (i : Instr), AtSlot k m s → s.Clean →
    (k = 0 ∧ s' = { s with desk := { s.desk with busy := true } }
        ∧ i = .tWrite s.cfg.addrHeartbeat s.cfg.hbPayload)
      ∨ (k = 1 ∧ s' = s ∧ i = .tRead s.motor[0].addr)
      ∨ (k = 10 ∧ s' = s ∧ i = .tWrite s.cfg.addrBroadcast
        [s.op.cmdPos.extractLsb' 0 8, s.op.cmdPos.extractLsb' 8 8, s.op.cmdInstr]) →
    ∃ u, exec i s' = .next u
      ∧ (u.Clean → exec .tick s = .next { u with op := { u.op with slot := k + 1 } })
      ∧ (¬ u.Clean → exec .tick s = .next u)

/-- A reading (R95, R205, R206), as slot 3 processes the right motor's: three bytes or more are position (low
byte first) and state and clear the outage count; fewer count an outage, saturating at 255, and keep position
and state; a blocked state enters Rescue only while moving. -/
def Obligations.ReadingAtSlot3 : Prop :=
  ∀ (m : OMode) (s : State), AtSlot 3 m s →
    ∃ u r, exec .tGetRx s = .next u ∧ u.uopResult = some r
      ∧ (∀ lo hi code more, r = lo :: hi :: code :: more →
        (s.desk.mode.moving = false ∨ code ∉ s.cfg.blockedStates → exec .tick s = .next { u with
          uopResult := s.uopResult
          motor := u.motor.set 1 { u.motor[1] with pos := hi ++ lo, state := code, outage := 0 }
          op := { u.op with slot := 4 } })
        ∧ (s.desk.mode.moving = true → code ∈ s.cfg.blockedStates → exec .tick s = .next { u with
          uopResult := s.uopResult
          motor := u.motor.set 1 { u.motor[1] with pos := hi ++ lo, state := code, outage := 0 }
          desk := { u.desk with mode := .operation .rescue }
          op := { u.op with
            slot := 4
            rescueT := 0
            faultDir := if m = .movingUp then .up else if m = .movingDown then .down
              else s.op.moveDir } }))
      ∧ (r.length < 3 → exec .tick s = .next { u with
          uopResult := s.uopResult
          motor := u.motor.set 1 { u.motor[1] with
            outage := if u.motor[1].outage = 255 then 255 else u.motor[1].outage + 1 }
          op := { u.op with slot := 4 } })

/-- Slot 2 (R203): the left motor's reading is processed as slot 3 processes the right one's, and then the
right motor is polled, with the effect T_READ has alone on the state that leaves. -/
def Obligations.ReadingAtSlot2 : Prop :=
  ∀ (m : OMode) (s : State), AtSlot 2 m s → s.Clean →
    ∃ u r v w, exec .tGetRx s = .next u ∧ u.uopResult = some r
      ∧ (∀ lo hi code more, r = lo :: hi :: code :: more →
        (s.desk.mode.moving = false ∨ code ∉ s.cfg.blockedStates → v = { u with
          uopResult := s.uopResult
          motor := u.motor.set 0 { u.motor[0] with pos := hi ++ lo, state := code, outage := 0 } })
        ∧ (s.desk.mode.moving = true → code ∈ s.cfg.blockedStates → v = { u with
          uopResult := s.uopResult
          motor := u.motor.set 0 { u.motor[0] with pos := hi ++ lo, state := code, outage := 0 }
          desk := { u.desk with mode := .operation .rescue }
          op := { u.op with
            rescueT := 0
            faultDir := if m = .movingUp then .up else if m = .movingDown then .down
              else s.op.moveDir } }))
      ∧ (r.length < 3 → v = { u with
          uopResult := s.uopResult
          motor := u.motor.set 0 { u.motor[0] with
            outage := if u.motor[0].outage = 255 then 255 else u.motor[0].outage + 1 } })
      ∧ exec (.tRead s.motor[1].addr) v = .next w
      ∧ (w.Clean → exec .tick s = .next { w with op := { w.op with slot := 3 } })
      ∧ (¬ w.Clean → exec .tick s = .next w)

/-- The synchronised position (R224): up takes the lower of two valid positions, down the higher; one valid
motor alone is taken; with none the last commanded position is held. -/
def Obligations.SynchronisedPosition : Prop :=
  ∀ s : State,
    (s.motor[0].outage = 0 → s.motor[1].outage = 0 →
      (posSel .up s).toNat = min s.motor[0].pos.toNat s.motor[1].pos.toNat
      ∧ (posSel .down s).toNat = max s.motor[0].pos.toNat s.motor[1].pos.toNat)
    ∧ (s.motor[0].outage = 0 → s.motor[1].outage ≠ 0 → ∀ d, posSel d s = s.motor[0].pos)
    ∧ (s.motor[0].outage ≠ 0 → s.motor[1].outage = 0 → ∀ d, posSel d s = s.motor[1].pos)
    ∧ (s.motor[0].outage ≠ 0 → s.motor[1].outage ≠ 0 → ∀ d, posSel d s = s.op.cmdPos)

open Classical in
/-- O.Begin at slot 9 (R213, R227): the target is snapped; at a limit the configured mode follows, else
O.Normal; the command is that of the mode after (R212, R223, R225). R8 (d) excludes O.Rescue as the configured
mode, so every well-formed configuration has a row of the command table. -/
def Obligations.DeskBeginResult : Prop :=
  ∀ s : State, AtSlot 9 .begin s →
    (¬ (s.desk.current.toNat ≤ s.desk.lower.toNat ∨ s.desk.upper.toNat ≤ s.desk.current.toNat) →
      exec .tick s = .next { s with
        desk := { s.desk with target := s.desk.current, mode := .operation .normal }
        op := { s.op with slot := 10, cmdInstr := s.cfg.instrIdle, cmdPos := s.desk.current } })
    ∧ (s.desk.current.toNat ≤ s.desk.lower.toNat ∨ s.desk.upper.toNat ≤ s.desk.current.toNat →
      ∀ instr pos, modeCommand s s.cfg.beginAtLimitNext = some (instr, pos) →
      exec .tick s = .next { s with
        desk := { s.desk with
          target := s.desk.current, mode := .operation s.cfg.beginAtLimitNext }
        op := { s.op with slot := 10, cmdInstr := instr, cmdPos := pos } })
    ∧ (configWellFormed s.cfg = true → (modeCommand s s.cfg.beginAtLimitNext).isSome = true)

open Classical in
/-- O.Normal at slot 9 (R214): O.Announcing on a calibration request or a distance strictly greater than
STOP_DIST; the command is that of the mode after (R212, R223, R225). -/
def Obligations.DeskNormalResult : Prop :=
  ∀ s : State, AtSlot 9 .normal s → exec .tick s = .next (
    if s.desk.calibReq = true ∨ ¬ Near s.cfg s.desk.target s.desk.current then
      { s with
        desk := { s.desk with mode := .operation .announcing }
        op := { s.op with slot := 10, cmdInstr := s.cfg.instrAnnounce, cmdPos := s.desk.current } }
    else
      { s with
        op := { s.op with slot := 10, cmdInstr := s.cfg.instrIdle, cmdPos := s.desk.current } })

/-- O.Announcing at slot 9 (R215): calibration, which consumes the flag, wins over a move; else up or down
by the sign of target − current; else back to O.Normal. -/
def Obligations.DeskAnnouncingResult : Prop :=
  ∀ s : State, AtSlot 9 .announcing s → exec .tick s = .next (
    if s.desk.calibReq = true then { s with
      desk := { s.desk with mode := .operation .calibrating, calibReq := false }
      op := { s.op with slot := 10, cmdInstr := s.cfg.instrCalibrate, cmdPos := s.desk.current } }
    else if s.desk.current.toNat < s.desk.target.toNat then { s with
      desk := { s.desk with mode := .operation .movingUp }
      op := { s.op with
        slot := 10, moveDir := .up, cmdInstr := s.cfg.instrUp, cmdPos := posSel .up s } }
    else if s.desk.target.toNat < s.desk.current.toNat then { s with
      desk := { s.desk with mode := .operation .movingDown }
      op := { s.op with
        slot := 10, moveDir := .down, cmdInstr := s.cfg.instrDown, cmdPos := posSel .down s } }
    else { s with
      desk := { s.desk with mode := .operation .normal }
      op := { s.op with slot := 10, cmdInstr := s.cfg.instrIdle, cmdPos := s.desk.current } })

/-- O.MovingUp and O.MovingDown at slot 9 (R216, R217): O.MovingSlow once the signed remaining distance is at
most STOP_DIST, an overshoot included; else the move goes on. -/
def Obligations.DeskMovingResult : Prop :=
  ∀ s : State,
    (AtSlot 9 .movingUp s → exec .tick s = .next (
      if s.desk.target.toNat ≤ s.desk.current.toNat + s.cfg.stopDist.toNat then { s with
        desk := { s.desk with mode := .operation .movingSlow }
        op := { s.op with
          slot := 10, slowCnt := 0, cmdInstr := s.cfg.instrSlow, cmdPos := posSel s.op.moveDir s } }
      else { s with
        op := { s.op with slot := 10, cmdInstr := s.cfg.instrUp, cmdPos := posSel .up s } }))
    ∧ (AtSlot 9 .movingDown s → exec .tick s = .next (
      if s.desk.current.toNat ≤ s.desk.target.toNat + s.cfg.stopDist.toNat then { s with
        desk := { s.desk with mode := .operation .movingSlow }
        op := { s.op with
          slot := 10, slowCnt := 0, cmdInstr := s.cfg.instrSlow, cmdPos := posSel s.op.moveDir s } }
      else { s with
        op := { s.op with slot := 10, cmdInstr := s.cfg.instrDown, cmdPos := posSel .down s } }))

/-- O.MovingSlow, O.MovingStop, O.Calibrating, O.CalibratingDone at slot 9 (R218 to R221): two more slow
steps, then stop; the target snapped on the way back to O.Normal; calibration ends when both motors report
it. -/
def Obligations.DeskStoppingAndCalibrating : Prop :=
  ∀ s : State,
    (AtSlot 9 .movingSlow s → s.op.slowCnt.toNat < 3 → exec .tick s = .next { s with
      desk := { s.desk with
        mode := .operation (if s.op.slowCnt = 2 then .movingStop else .movingSlow) }
      op := { s.op with
        slot := 10, slowCnt := s.op.slowCnt + 1,
        cmdInstr := if s.op.slowCnt = 2 then s.cfg.instrStop else s.cfg.instrSlow,
        cmdPos := posSel s.op.moveDir s } })
    ∧ (AtSlot 9 .movingStop s ∨ AtSlot 9 .calibratingDone s → exec .tick s = .next { s with
      desk := { s.desk with target := s.desk.current, mode := .operation .normal }
      op := { s.op with slot := 10, cmdInstr := s.cfg.instrIdle, cmdPos := s.desk.current } })
    ∧ (AtSlot 9 .calibrating s → exec .tick s = .next (
      if s.motor[0].state = s.cfg.stateCalibrated ∧ s.motor[1].state = s.cfg.stateCalibrated then { s with
        desk := { s.desk with mode := .operation .calibratingDone }
        op := { s.op with
          slot := 10, cmdInstr := s.cfg.instrCalibrateStop, cmdPos := s.desk.current } }
      else { s with
        op := { s.op with
          slot := 10, cmdInstr := s.cfg.instrCalibrate, cmdPos := s.desk.current } }))

/-- O.Rescue at slot 9 (R222): before rescue-tick 22 the phase table's instruction with the position of the
reverse direction; at 22 back to O.Normal, the target snapped, commanding IDLE. -/
def Obligations.DeskRescueResult : Prop :=
  ∀ s : State, AtSlot 9 .rescue s →
    (s.op.rescueT.toNat < 22 → ∃ instr, RescueCommand s.cfg s.op.faultDir s.op.rescueT.toNat instr
      ∧ exec .tick s = .next { s with
        op := { s.op with
          slot := 10, rescueT := s.op.rescueT + 1, cmdInstr := instr,
          cmdPos := posSel (if s.op.faultDir = .up then .down else .up) s } })
    ∧ (s.op.rescueT = 22 → exec .tick s = .next { s with
        desk := { s.desk with target := s.desk.current, mode := .operation .normal }
        op := { s.op with slot := 10, cmdInstr := s.cfg.instrIdle, cmdPos := s.desk.current } })
end

