-- ==== Sys2Proof/Laws/Config.lean ====
section
/-! SUPPORT. What the two conditions on a configuration say, field by field. -/

namespace Sys2Proof.Machine

/-- The values R7's table gives. -/
theorem tableValues_fields {c : Config} (h : c.tableValues = true) :
    c.syncByte = 0x55 ∧ c.diagTxAddr = 0x3C ∧ c.diagRxAddr = 0x3D
    ∧ c.slowDwell = 3 ∧ c.retryMax = 2 ∧ c.scanCount = 8
    ∧ c.holdTicks = 2 ∧ c.readDelay = 1 ∧ c.cycleLen = 19 ∧ c.rescueLen = 23
    ∧ c.motorCount = 2 ∧ c.nodeCount = 8 ∧ c.maxPayload = 8 ∧ c.rxCap = 9
    ∧ c.filler = 0xFF ∧ c.outageMax = 255 ∧ c.sentinel8 = 0xFF ∧ c.sentinel16 = 0xFFFF := by
  simpa [Config.tableValues, and_assoc] using h

/-- A record that has the table's values is not changed by writing them. -/
theorem withTableValues_eq {c : Config} (h : c.tableValues = true) : c.withTableValues = c := by
  have hf := tableValues_fields h
  cases c
  obtain ⟨rfl, rfl, rfl, rfl, rfl, rfl, rfl, rfl, rfl, rfl, rfl, rfl, rfl, rfl, rfl, rfl, rfl, rfl⟩ := hf
  rfl

/-- This hardware's configuration is well formed (R8) and has the table's values (R7). -/
theorem hardware_legal : Config.hardware.Legal := by
  have h := (@Config.openRecord ⟨Config.legalExample⟩).2
  rwa [← withTableValues_eq h.tableValues] at h

end Sys2Proof.Machine
end

