-- ==== Sys2Proof/Laws/State.lean ====
section
/-! SUPPORT. One lemma per field per update of State, true by rfl, so that no proof unfolds a record
update. -/

namespace Sys2Proof.Machine

/-! ### `State.withCfg` -/

@[simp] theorem State.withCfg_cfg (s : State) (v : Config) : (s.withCfg v).cfg = v := rfl
@[simp] theorem State.withCfg_t (s : State) (v : Config) : (s.withCfg v).t = s.t := rfl
@[simp] theorem State.withCfg_node (s : State) (v : Config) : (s.withCfg v).node = s.node := rfl
@[simp] theorem State.withCfg_motor (s : State) (v : Config) : (s.withCfg v).motor = s.motor := rfl
@[simp] theorem State.withCfg_d (s : State) (v : Config) : (s.withCfg v).d = s.d := rfl
@[simp] theorem State.withCfg_desk (s : State) (v : Config) : (s.withCfg v).desk = s.desk := rfl
@[simp] theorem State.withCfg_op (s : State) (v : Config) : (s.withCfg v).op = s.op := rfl
@[simp] theorem State.withCfg_wire (s : State) (v : Config) : (s.withCfg v).wire = s.wire := rfl
@[simp] theorem State.withCfg_faults (s : State) (v : Config) : (s.withCfg v).faults = s.faults := rfl
@[simp] theorem State.withCfg_refused (s : State) (v : Config) : (s.withCfg v).refused = s.refused := rfl
@[simp] theorem State.withCfg_resp (s : State) (v : Config) : (s.withCfg v).resp = s.resp := rfl
@[simp] theorem State.withCfg_uopResult (s : State) (v : Config) : (s.withCfg v).uopResult = s.uopResult := rfl
@[simp] theorem State.withCfg_input (s : State) (v : Config) : (s.withCfg v).input = s.input := rfl
theorem State.withCfg_self (s : State) : s.withCfg s.cfg = s := rfl
@[simp] theorem State.withCfg_withCfg (s : State) (v w : Config) : (s.withCfg v).withCfg w = s.withCfg w := rfl

/-! ### `State.withT` -/

@[simp] theorem State.withT_cfg (s : State) (v : Transport) : (s.withT v).cfg = s.cfg := rfl
@[simp] theorem State.withT_t (s : State) (v : Transport) : (s.withT v).t = v := rfl
@[simp] theorem State.withT_node (s : State) (v : Transport) : (s.withT v).node = s.node := rfl
@[simp] theorem State.withT_motor (s : State) (v : Transport) : (s.withT v).motor = s.motor := rfl
@[simp] theorem State.withT_d (s : State) (v : Transport) : (s.withT v).d = s.d := rfl
@[simp] theorem State.withT_desk (s : State) (v : Transport) : (s.withT v).desk = s.desk := rfl
@[simp] theorem State.withT_op (s : State) (v : Transport) : (s.withT v).op = s.op := rfl
@[simp] theorem State.withT_wire (s : State) (v : Transport) : (s.withT v).wire = s.wire := rfl
@[simp] theorem State.withT_faults (s : State) (v : Transport) : (s.withT v).faults = s.faults := rfl
@[simp] theorem State.withT_refused (s : State) (v : Transport) : (s.withT v).refused = s.refused := rfl
@[simp] theorem State.withT_resp (s : State) (v : Transport) : (s.withT v).resp = s.resp := rfl
@[simp] theorem State.withT_uopResult (s : State) (v : Transport) : (s.withT v).uopResult = s.uopResult := rfl
@[simp] theorem State.withT_input (s : State) (v : Transport) : (s.withT v).input = s.input := rfl
theorem State.withT_self (s : State) : s.withT s.t = s := rfl
@[simp] theorem State.withT_withT (s : State) (v w : Transport) : (s.withT v).withT w = s.withT w := rfl

/-! ### `State.withNode` -/

@[simp] theorem State.withNode_cfg (s : State) (v : Vector NodeRecord 8) : (s.withNode v).cfg = s.cfg := rfl
@[simp] theorem State.withNode_t (s : State) (v : Vector NodeRecord 8) : (s.withNode v).t = s.t := rfl
@[simp] theorem State.withNode_node (s : State) (v : Vector NodeRecord 8) : (s.withNode v).node = v := rfl
@[simp] theorem State.withNode_motor (s : State) (v : Vector NodeRecord 8) : (s.withNode v).motor = s.motor := rfl
@[simp] theorem State.withNode_d (s : State) (v : Vector NodeRecord 8) : (s.withNode v).d = s.d := rfl
@[simp] theorem State.withNode_desk (s : State) (v : Vector NodeRecord 8) : (s.withNode v).desk = s.desk := rfl
@[simp] theorem State.withNode_op (s : State) (v : Vector NodeRecord 8) : (s.withNode v).op = s.op := rfl
@[simp] theorem State.withNode_wire (s : State) (v : Vector NodeRecord 8) : (s.withNode v).wire = s.wire := rfl
@[simp] theorem State.withNode_faults (s : State) (v : Vector NodeRecord 8) : (s.withNode v).faults = s.faults := rfl
@[simp] theorem State.withNode_refused (s : State) (v : Vector NodeRecord 8) : (s.withNode v).refused = s.refused := rfl
@[simp] theorem State.withNode_resp (s : State) (v : Vector NodeRecord 8) : (s.withNode v).resp = s.resp := rfl
@[simp] theorem State.withNode_uopResult (s : State) (v : Vector NodeRecord 8) : (s.withNode v).uopResult = s.uopResult := rfl
@[simp] theorem State.withNode_input (s : State) (v : Vector NodeRecord 8) : (s.withNode v).input = s.input := rfl
theorem State.withNode_self (s : State) : s.withNode s.node = s := rfl
@[simp] theorem State.withNode_withNode (s : State) (v w : Vector NodeRecord 8) : (s.withNode v).withNode w = s.withNode w := rfl

/-! ### `State.withMotor` -/

@[simp] theorem State.withMotor_cfg (s : State) (v : Vector MotorRecord 2) : (s.withMotor v).cfg = s.cfg := rfl
@[simp] theorem State.withMotor_t (s : State) (v : Vector MotorRecord 2) : (s.withMotor v).t = s.t := rfl
@[simp] theorem State.withMotor_node (s : State) (v : Vector MotorRecord 2) : (s.withMotor v).node = s.node := rfl
@[simp] theorem State.withMotor_motor (s : State) (v : Vector MotorRecord 2) : (s.withMotor v).motor = v := rfl
@[simp] theorem State.withMotor_d (s : State) (v : Vector MotorRecord 2) : (s.withMotor v).d = s.d := rfl
@[simp] theorem State.withMotor_desk (s : State) (v : Vector MotorRecord 2) : (s.withMotor v).desk = s.desk := rfl
@[simp] theorem State.withMotor_op (s : State) (v : Vector MotorRecord 2) : (s.withMotor v).op = s.op := rfl
@[simp] theorem State.withMotor_wire (s : State) (v : Vector MotorRecord 2) : (s.withMotor v).wire = s.wire := rfl
@[simp] theorem State.withMotor_faults (s : State) (v : Vector MotorRecord 2) : (s.withMotor v).faults = s.faults := rfl
@[simp] theorem State.withMotor_refused (s : State) (v : Vector MotorRecord 2) : (s.withMotor v).refused = s.refused := rfl
@[simp] theorem State.withMotor_resp (s : State) (v : Vector MotorRecord 2) : (s.withMotor v).resp = s.resp := rfl
@[simp] theorem State.withMotor_uopResult (s : State) (v : Vector MotorRecord 2) : (s.withMotor v).uopResult = s.uopResult := rfl
@[simp] theorem State.withMotor_input (s : State) (v : Vector MotorRecord 2) : (s.withMotor v).input = s.input := rfl
theorem State.withMotor_self (s : State) : s.withMotor s.motor = s := rfl
@[simp] theorem State.withMotor_withMotor (s : State) (v w : Vector MotorRecord 2) : (s.withMotor v).withMotor w = s.withMotor w := rfl

/-! ### `State.withD` -/

@[simp] theorem State.withD_cfg (s : State) (v : Discovery) : (s.withD v).cfg = s.cfg := rfl
@[simp] theorem State.withD_t (s : State) (v : Discovery) : (s.withD v).t = s.t := rfl
@[simp] theorem State.withD_node (s : State) (v : Discovery) : (s.withD v).node = s.node := rfl
@[simp] theorem State.withD_motor (s : State) (v : Discovery) : (s.withD v).motor = s.motor := rfl
@[simp] theorem State.withD_d (s : State) (v : Discovery) : (s.withD v).d = v := rfl
@[simp] theorem State.withD_desk (s : State) (v : Discovery) : (s.withD v).desk = s.desk := rfl
@[simp] theorem State.withD_op (s : State) (v : Discovery) : (s.withD v).op = s.op := rfl
@[simp] theorem State.withD_wire (s : State) (v : Discovery) : (s.withD v).wire = s.wire := rfl
@[simp] theorem State.withD_faults (s : State) (v : Discovery) : (s.withD v).faults = s.faults := rfl
@[simp] theorem State.withD_refused (s : State) (v : Discovery) : (s.withD v).refused = s.refused := rfl
@[simp] theorem State.withD_resp (s : State) (v : Discovery) : (s.withD v).resp = s.resp := rfl
@[simp] theorem State.withD_uopResult (s : State) (v : Discovery) : (s.withD v).uopResult = s.uopResult := rfl
@[simp] theorem State.withD_input (s : State) (v : Discovery) : (s.withD v).input = s.input := rfl
theorem State.withD_self (s : State) : s.withD s.d = s := rfl
@[simp] theorem State.withD_withD (s : State) (v w : Discovery) : (s.withD v).withD w = s.withD w := rfl

/-! ### `State.withDesk` -/

@[simp] theorem State.withDesk_cfg (s : State) (v : Desk) : (s.withDesk v).cfg = s.cfg := rfl
@[simp] theorem State.withDesk_t (s : State) (v : Desk) : (s.withDesk v).t = s.t := rfl
@[simp] theorem State.withDesk_node (s : State) (v : Desk) : (s.withDesk v).node = s.node := rfl
@[simp] theorem State.withDesk_motor (s : State) (v : Desk) : (s.withDesk v).motor = s.motor := rfl
@[simp] theorem State.withDesk_d (s : State) (v : Desk) : (s.withDesk v).d = s.d := rfl
@[simp] theorem State.withDesk_desk (s : State) (v : Desk) : (s.withDesk v).desk = v := rfl
@[simp] theorem State.withDesk_op (s : State) (v : Desk) : (s.withDesk v).op = s.op := rfl
@[simp] theorem State.withDesk_wire (s : State) (v : Desk) : (s.withDesk v).wire = s.wire := rfl
@[simp] theorem State.withDesk_faults (s : State) (v : Desk) : (s.withDesk v).faults = s.faults := rfl
@[simp] theorem State.withDesk_refused (s : State) (v : Desk) : (s.withDesk v).refused = s.refused := rfl
@[simp] theorem State.withDesk_resp (s : State) (v : Desk) : (s.withDesk v).resp = s.resp := rfl
@[simp] theorem State.withDesk_uopResult (s : State) (v : Desk) : (s.withDesk v).uopResult = s.uopResult := rfl
@[simp] theorem State.withDesk_input (s : State) (v : Desk) : (s.withDesk v).input = s.input := rfl
theorem State.withDesk_self (s : State) : s.withDesk s.desk = s := rfl
@[simp] theorem State.withDesk_withDesk (s : State) (v w : Desk) : (s.withDesk v).withDesk w = s.withDesk w := rfl

/-! ### `State.withOp` -/

@[simp] theorem State.withOp_cfg (s : State) (v : Operation) : (s.withOp v).cfg = s.cfg := rfl
@[simp] theorem State.withOp_t (s : State) (v : Operation) : (s.withOp v).t = s.t := rfl
@[simp] theorem State.withOp_node (s : State) (v : Operation) : (s.withOp v).node = s.node := rfl
@[simp] theorem State.withOp_motor (s : State) (v : Operation) : (s.withOp v).motor = s.motor := rfl
@[simp] theorem State.withOp_d (s : State) (v : Operation) : (s.withOp v).d = s.d := rfl
@[simp] theorem State.withOp_desk (s : State) (v : Operation) : (s.withOp v).desk = s.desk := rfl
@[simp] theorem State.withOp_op (s : State) (v : Operation) : (s.withOp v).op = v := rfl
@[simp] theorem State.withOp_wire (s : State) (v : Operation) : (s.withOp v).wire = s.wire := rfl
@[simp] theorem State.withOp_faults (s : State) (v : Operation) : (s.withOp v).faults = s.faults := rfl
@[simp] theorem State.withOp_refused (s : State) (v : Operation) : (s.withOp v).refused = s.refused := rfl
@[simp] theorem State.withOp_resp (s : State) (v : Operation) : (s.withOp v).resp = s.resp := rfl
@[simp] theorem State.withOp_uopResult (s : State) (v : Operation) : (s.withOp v).uopResult = s.uopResult := rfl
@[simp] theorem State.withOp_input (s : State) (v : Operation) : (s.withOp v).input = s.input := rfl
theorem State.withOp_self (s : State) : s.withOp s.op = s := rfl
@[simp] theorem State.withOp_withOp (s : State) (v w : Operation) : (s.withOp v).withOp w = s.withOp w := rfl

/-! ### `State.withWire` -/

@[simp] theorem State.withWire_cfg (s : State) (v : List Symbol) : (s.withWire v).cfg = s.cfg := rfl
@[simp] theorem State.withWire_t (s : State) (v : List Symbol) : (s.withWire v).t = s.t := rfl
@[simp] theorem State.withWire_node (s : State) (v : List Symbol) : (s.withWire v).node = s.node := rfl
@[simp] theorem State.withWire_motor (s : State) (v : List Symbol) : (s.withWire v).motor = s.motor := rfl
@[simp] theorem State.withWire_d (s : State) (v : List Symbol) : (s.withWire v).d = s.d := rfl
@[simp] theorem State.withWire_desk (s : State) (v : List Symbol) : (s.withWire v).desk = s.desk := rfl
@[simp] theorem State.withWire_op (s : State) (v : List Symbol) : (s.withWire v).op = s.op := rfl
@[simp] theorem State.withWire_wire (s : State) (v : List Symbol) : (s.withWire v).wire = v := rfl
@[simp] theorem State.withWire_faults (s : State) (v : List Symbol) : (s.withWire v).faults = s.faults := rfl
@[simp] theorem State.withWire_refused (s : State) (v : List Symbol) : (s.withWire v).refused = s.refused := rfl
@[simp] theorem State.withWire_resp (s : State) (v : List Symbol) : (s.withWire v).resp = s.resp := rfl
@[simp] theorem State.withWire_uopResult (s : State) (v : List Symbol) : (s.withWire v).uopResult = s.uopResult := rfl
@[simp] theorem State.withWire_input (s : State) (v : List Symbol) : (s.withWire v).input = s.input := rfl
theorem State.withWire_self (s : State) : s.withWire s.wire = s := rfl
@[simp] theorem State.withWire_withWire (s : State) (v w : List Symbol) : (s.withWire v).withWire w = s.withWire w := rfl

/-! ### `State.withFaults` -/

@[simp] theorem State.withFaults_cfg (s : State) (v : List Fault) : (s.withFaults v).cfg = s.cfg := rfl
@[simp] theorem State.withFaults_t (s : State) (v : List Fault) : (s.withFaults v).t = s.t := rfl
@[simp] theorem State.withFaults_node (s : State) (v : List Fault) : (s.withFaults v).node = s.node := rfl
@[simp] theorem State.withFaults_motor (s : State) (v : List Fault) : (s.withFaults v).motor = s.motor := rfl
@[simp] theorem State.withFaults_d (s : State) (v : List Fault) : (s.withFaults v).d = s.d := rfl
@[simp] theorem State.withFaults_desk (s : State) (v : List Fault) : (s.withFaults v).desk = s.desk := rfl
@[simp] theorem State.withFaults_op (s : State) (v : List Fault) : (s.withFaults v).op = s.op := rfl
@[simp] theorem State.withFaults_wire (s : State) (v : List Fault) : (s.withFaults v).wire = s.wire := rfl
@[simp] theorem State.withFaults_faults (s : State) (v : List Fault) : (s.withFaults v).faults = v := rfl
@[simp] theorem State.withFaults_refused (s : State) (v : List Fault) : (s.withFaults v).refused = s.refused := rfl
@[simp] theorem State.withFaults_resp (s : State) (v : List Fault) : (s.withFaults v).resp = s.resp := rfl
@[simp] theorem State.withFaults_uopResult (s : State) (v : List Fault) : (s.withFaults v).uopResult = s.uopResult := rfl
@[simp] theorem State.withFaults_input (s : State) (v : List Fault) : (s.withFaults v).input = s.input := rfl
theorem State.withFaults_self (s : State) : s.withFaults s.faults = s := rfl
@[simp] theorem State.withFaults_withFaults (s : State) (v w : List Fault) : (s.withFaults v).withFaults w = s.withFaults w := rfl

/-! ### `State.withRefused` -/

@[simp] theorem State.withRefused_cfg (s : State) (v : Option Refusal) : (s.withRefused v).cfg = s.cfg := rfl
@[simp] theorem State.withRefused_t (s : State) (v : Option Refusal) : (s.withRefused v).t = s.t := rfl
@[simp] theorem State.withRefused_node (s : State) (v : Option Refusal) : (s.withRefused v).node = s.node := rfl
@[simp] theorem State.withRefused_motor (s : State) (v : Option Refusal) : (s.withRefused v).motor = s.motor := rfl
@[simp] theorem State.withRefused_d (s : State) (v : Option Refusal) : (s.withRefused v).d = s.d := rfl
@[simp] theorem State.withRefused_desk (s : State) (v : Option Refusal) : (s.withRefused v).desk = s.desk := rfl
@[simp] theorem State.withRefused_op (s : State) (v : Option Refusal) : (s.withRefused v).op = s.op := rfl
@[simp] theorem State.withRefused_wire (s : State) (v : Option Refusal) : (s.withRefused v).wire = s.wire := rfl
@[simp] theorem State.withRefused_faults (s : State) (v : Option Refusal) : (s.withRefused v).faults = s.faults := rfl
@[simp] theorem State.withRefused_refused (s : State) (v : Option Refusal) : (s.withRefused v).refused = v := rfl
@[simp] theorem State.withRefused_resp (s : State) (v : Option Refusal) : (s.withRefused v).resp = s.resp := rfl
@[simp] theorem State.withRefused_uopResult (s : State) (v : Option Refusal) : (s.withRefused v).uopResult = s.uopResult := rfl
@[simp] theorem State.withRefused_input (s : State) (v : Option Refusal) : (s.withRefused v).input = s.input := rfl
theorem State.withRefused_self (s : State) : s.withRefused s.refused = s := rfl
@[simp] theorem State.withRefused_withRefused (s : State) (v w : Option Refusal) : (s.withRefused v).withRefused w = s.withRefused w := rfl

/-! ### `State.withResp` -/

@[simp] theorem State.withResp_cfg (s : State) (v : Option RespWord) : (s.withResp v).cfg = s.cfg := rfl
@[simp] theorem State.withResp_t (s : State) (v : Option RespWord) : (s.withResp v).t = s.t := rfl
@[simp] theorem State.withResp_node (s : State) (v : Option RespWord) : (s.withResp v).node = s.node := rfl
@[simp] theorem State.withResp_motor (s : State) (v : Option RespWord) : (s.withResp v).motor = s.motor := rfl
@[simp] theorem State.withResp_d (s : State) (v : Option RespWord) : (s.withResp v).d = s.d := rfl
@[simp] theorem State.withResp_desk (s : State) (v : Option RespWord) : (s.withResp v).desk = s.desk := rfl
@[simp] theorem State.withResp_op (s : State) (v : Option RespWord) : (s.withResp v).op = s.op := rfl
@[simp] theorem State.withResp_wire (s : State) (v : Option RespWord) : (s.withResp v).wire = s.wire := rfl
@[simp] theorem State.withResp_faults (s : State) (v : Option RespWord) : (s.withResp v).faults = s.faults := rfl
@[simp] theorem State.withResp_refused (s : State) (v : Option RespWord) : (s.withResp v).refused = s.refused := rfl
@[simp] theorem State.withResp_resp (s : State) (v : Option RespWord) : (s.withResp v).resp = v := rfl
@[simp] theorem State.withResp_uopResult (s : State) (v : Option RespWord) : (s.withResp v).uopResult = s.uopResult := rfl
@[simp] theorem State.withResp_input (s : State) (v : Option RespWord) : (s.withResp v).input = s.input := rfl
theorem State.withResp_self (s : State) : s.withResp s.resp = s := rfl
@[simp] theorem State.withResp_withResp (s : State) (v w : Option RespWord) : (s.withResp v).withResp w = s.withResp w := rfl

/-! ### `State.withUopResult` -/

@[simp] theorem State.withUopResult_cfg (s : State) (v : Option (List Byte)) : (s.withUopResult v).cfg = s.cfg := rfl
@[simp] theorem State.withUopResult_t (s : State) (v : Option (List Byte)) : (s.withUopResult v).t = s.t := rfl
@[simp] theorem State.withUopResult_node (s : State) (v : Option (List Byte)) : (s.withUopResult v).node = s.node := rfl
@[simp] theorem State.withUopResult_motor (s : State) (v : Option (List Byte)) : (s.withUopResult v).motor = s.motor := rfl
@[simp] theorem State.withUopResult_d (s : State) (v : Option (List Byte)) : (s.withUopResult v).d = s.d := rfl
@[simp] theorem State.withUopResult_desk (s : State) (v : Option (List Byte)) : (s.withUopResult v).desk = s.desk := rfl
@[simp] theorem State.withUopResult_op (s : State) (v : Option (List Byte)) : (s.withUopResult v).op = s.op := rfl
@[simp] theorem State.withUopResult_wire (s : State) (v : Option (List Byte)) : (s.withUopResult v).wire = s.wire := rfl
@[simp] theorem State.withUopResult_faults (s : State) (v : Option (List Byte)) : (s.withUopResult v).faults = s.faults := rfl
@[simp] theorem State.withUopResult_refused (s : State) (v : Option (List Byte)) : (s.withUopResult v).refused = s.refused := rfl
@[simp] theorem State.withUopResult_resp (s : State) (v : Option (List Byte)) : (s.withUopResult v).resp = s.resp := rfl
@[simp] theorem State.withUopResult_uopResult (s : State) (v : Option (List Byte)) : (s.withUopResult v).uopResult = v := rfl
@[simp] theorem State.withUopResult_input (s : State) (v : Option (List Byte)) : (s.withUopResult v).input = s.input := rfl
theorem State.withUopResult_self (s : State) : s.withUopResult s.uopResult = s := rfl
@[simp] theorem State.withUopResult_withUopResult (s : State) (v w : Option (List Byte)) : (s.withUopResult v).withUopResult w = s.withUopResult w := rfl

/-! ### `State.withInput` -/

@[simp] theorem State.withInput_cfg (s : State) (v : List Input) : (s.withInput v).cfg = s.cfg := rfl
@[simp] theorem State.withInput_t (s : State) (v : List Input) : (s.withInput v).t = s.t := rfl
@[simp] theorem State.withInput_node (s : State) (v : List Input) : (s.withInput v).node = s.node := rfl
@[simp] theorem State.withInput_motor (s : State) (v : List Input) : (s.withInput v).motor = s.motor := rfl
@[simp] theorem State.withInput_d (s : State) (v : List Input) : (s.withInput v).d = s.d := rfl
@[simp] theorem State.withInput_desk (s : State) (v : List Input) : (s.withInput v).desk = s.desk := rfl
@[simp] theorem State.withInput_op (s : State) (v : List Input) : (s.withInput v).op = s.op := rfl
@[simp] theorem State.withInput_wire (s : State) (v : List Input) : (s.withInput v).wire = s.wire := rfl
@[simp] theorem State.withInput_faults (s : State) (v : List Input) : (s.withInput v).faults = s.faults := rfl
@[simp] theorem State.withInput_refused (s : State) (v : List Input) : (s.withInput v).refused = s.refused := rfl
@[simp] theorem State.withInput_resp (s : State) (v : List Input) : (s.withInput v).resp = s.resp := rfl
@[simp] theorem State.withInput_uopResult (s : State) (v : List Input) : (s.withInput v).uopResult = s.uopResult := rfl
@[simp] theorem State.withInput_input (s : State) (v : List Input) : (s.withInput v).input = v := rfl
theorem State.withInput_self (s : State) : s.withInput s.input = s := rfl
@[simp] theorem State.withInput_withInput (s : State) (v w : List Input) : (s.withInput v).withInput w = s.withInput w := rfl

end Sys2Proof.Machine
end

