-- ==== Sys2Proof/Laws/Ops.lean ====
section
/-! SUPPORT. What each shared operation of Machine/Ops.lean can do, said once: flows, raise, refuse, emit, the
sequencer transitions, the reset values, taking the next input, and one step. -/

namespace Sys2Proof.Machine

/-! ### Flows -/

@[simp] theorem Flow.result_go (s : State) : (Flow.go s).result = s := rfl
@[simp] theorem Flow.result_stop (s : State) : (Flow.stop s).result = s := rfl
@[simp] theorem Flow.andThen_go (s : State) (k : State → Flow) : (Flow.go s).andThen k = k s := rfl
@[simp] theorem Flow.andThen_stop (s : State) (k : State → Flow) :
    (Flow.stop s).andThen k = .stop s := rfl

/-- A flow goes on or has stopped. -/
theorem Flow.cases_result (f : Flow) : f = .go f.result ∨ f = .stop f.result := by
  cases f <;> simp

theorem raise_result (r : Fault) (s : State) : (raise r s).result
    = s.withFaults (if s.faults.contains r then s.faults else s.faults ++ [r]) := rfl

/-- A fault not yet recorded is appended. -/
theorem raise_of_notMem {r : Fault} {s : State} (h : r ∉ s.faults) :
    raise r s = .stop (s.withFaults (s.faults ++ [r])) := by
  simp [raise, h]

theorem refuse_result (r : Refusal) (s : State) : (refuse r s).result = s.withRefused (some r) := rfl

/-- `emit` appends the symbol when none is in flight, else it raises TxOverrun. -/
theorem emit_cases (x : Symbol) (s : State) :
    (s.t.txInflight = false
      ∧ emit x s = .go ((s.withWire (s.wire ++ [x])).withT { s.t with txInflight := true }))
    ∨ (s.t.txInflight = true ∧ emit x s = raise .txOverrun s) := by
  cases h : s.t.txInflight <;> simp [emit, h]

/-! ### The response -/

@[simp] theorem respond_resp (c : ResultCode) (v : BitVec 16) (s : State) :
    (respond c v s).resp = some (respWord c v) := rfl

theorem ResultCode.number_le (c : ResultCode) : c.number.toNat ≤ 7 := by cases c <;> decide

theorem respWord_toNat (c : ResultCode) (v : BitVec 16) :
    (respWord c v).toNat = c.number.toNat * 2 ^ 24 + v.toNat := by
  have h := v.isLt
  have e1 : (c.number ++ (0 : BitVec 8)).toNat = c.number.toNat * 2 ^ 8 := by
    rw [BitVec.toNat_append]; simp [Nat.shiftLeft_eq]
  rw [respWord, BitVec.toNat_append, ← Nat.shiftLeft_add_eq_or_of_lt h _, Nat.shiftLeft_eq, e1]
  omega

/-! ### Sequencer transitions -/

theorem enter_eq (S : DMode) (s : State) :
    enter S s = { s with desk := { s.desk with mode := .startup S }, d := { s.d with discT := 0 } } := rfl

theorem setOMode_eq (m : OMode) (s : State) :
    setOMode m s = { s with desk := { s.desk with mode := .operation m } } := rfl

theorem snapTarget_eq (s : State) :
    snapTarget s = { s with desk := { s.desk with target := s.desk.current } } := rfl

theorem enterRescue_eq (s : State) :
    enterRescue s = { s with
      desk := { s.desk with mode := .operation .rescue }
      op := { s.op with faultDir := travelDir s, rescueT := 0 } } := rfl

theorem leaveRescue_eq (s : State) :
    leaveRescue s = { s with
      desk := { s.desk with target := s.desk.current, mode := .operation .normal } } := rfl

theorem travelDir_cases (s : State) :
    (s.desk.mode = .operation .movingUp ∧ travelDir s = .up)
    ∨ (s.desk.mode = .operation .movingDown ∧ travelDir s = .down)
    ∨ (s.desk.mode ≠ .operation .movingUp ∧ s.desk.mode ≠ .operation .movingDown
      ∧ travelDir s = s.op.moveDir) := by
  unfold travelDir
  cases h : s.desk.mode with
  | idle => simp
  | startup S => simp
  | operation m => cases m <;> simp

theorem resetRegisters_eq (s : State) :
    resetRegisters s = { s with
      t := .atReset, node := Vector.replicate 8 .atReset, motor := Vector.replicate 2 .atReset,
      d := .atReset, desk := .atReset, op := .atReset } := rfl

/-- The Operation class is the modes `O.m` (R43). -/
theorem Mode.classOf_eq_two (m : Mode) : m.classOf = 2 ↔ ∃ o, m = .operation o := by
  cases m with
  | idle => simp; decide
  | startup S => cases S <;> simp <;> decide
  | operation m => cases m <;> simp <;> decide

/-! ### One step -/

/-- A state is halted exactly when it is not clean, and reports a recorded fault or the mark. -/
theorem halted_cases (s : State) :
    (s.faults = [] ∧ s.refused = none ∧ halted s = none)
    ∨ (∃ f fs, s.faults = f :: fs ∧ halted s = some (.fault f))
    ∨ (∃ r, s.faults = [] ∧ s.refused = some r ∧ halted s = some (.refused r)) := by
  unfold halted
  cases hf : s.faults with
  | cons f fs => simp
  | nil => cases hr : s.refused <;> simp

/-- What the next input is. -/
theorem fetch_cases (s : State) :
    (s.input = [] ∧ fetch s = .none)
    ∨ (∃ x rest i, s.input = x :: rest ∧ decode x = .ok i ∧ fetch s = .instr i (s.withInput rest))
    ∨ (∃ x rest code, s.input = x :: rest ∧ decode x = .error (.unknownMicroOp code)
      ∧ fetch s = .bad (.unknownMicroOp code)) := by
  unfold fetch
  cases hi : s.input with
  | nil => simp
  | cons x rest =>
    cases hd : decode x with
    | ok i => simp [hd]
    | error e => cases e; simp [hd]

/-- A step that answers a next state had no input, or ran the instruction of its oldest one. -/
theorem step_next {s t : State} (h : step s = .next t) :
    (s.input = [] ∧ t = s)
    ∨ ∃ x rest i, s.faults = [] ∧ s.refused = none ∧ s.input = x :: rest ∧ decode x = .ok i
      ∧ exec i (s.withInput rest) = .next t := by
  unfold step at h
  rcases halted_cases s with ⟨hf, hr, hh⟩ | ⟨f, fs, -, hh⟩ | ⟨r, -, -, hh⟩
  · rw [hh] at h
    rcases fetch_cases s with ⟨hi, he⟩ | ⟨x, rest, i, hi, hd, he⟩ | ⟨x, rest, c, hi, hd, he⟩
    · rw [he] at h; cases h; exact .inl ⟨hi, rfl⟩
    · rw [he] at h; exact .inr ⟨x, rest, i, hf, hr, hi, hd, h⟩
    · rw [he] at h; cases h
  · rw [hh] at h; cases h
  · rw [hh] at h; cases h

end Sys2Proof.Machine
end

