-- ==== Sys2Proof/Laws/Transport.lean ====
section
/-! SUPPORT. What each transport operation can do, said once, and what none of them touches. -/

namespace Sys2Proof.Machine

/-! ### The frame of the transport -/

/-- `t` is `s` but for the transport's registers and the three histories: at most one symbol more on the
wire, then in flight; at most one fault more; the refusal mark not cleared. -/
structure OnlyTransport (s t : State) : Prop where
  rest : t = { s with t := t.t, wire := t.wire, faults := t.faults, refused := t.refused }
  wire : t.wire = s.wire ∨ ∃ x, t.wire = s.wire ++ [x] ∧ t.t.txInflight = true
  faults : t.faults = s.faults ∨ ∃ f, f ∉ s.faults ∧ t.faults = s.faults ++ [f]
  refused : t.refused = none → s.refused = none

theorem OnlyTransport.refl (s : State) : OnlyTransport s s := ⟨rfl, .inl rfl, .inl rfl, id⟩

theorem OnlyTransport.withT {s t : State} {v : Transport} (h : OnlyTransport (s.withT v) t) :
    OnlyTransport s t := ⟨h.rest, h.wire, h.faults, h.refused⟩

theorem OnlyTransport.ofWithT (s : State) (v : Transport) : OnlyTransport s (s.withT v) :=
  (OnlyTransport.refl _).withT

/-- The registers no transport operation writes. -/
theorem OnlyTransport.same {s t : State} (h : OnlyTransport s t) :
    t.cfg = s.cfg ∧ t.node = s.node ∧ t.motor = s.motor ∧ t.d = s.d ∧ t.desk = s.desk ∧ t.op = s.op
    ∧ t.resp = s.resp ∧ t.uopResult = s.uopResult ∧ t.input = s.input := by
  rw [h.rest]; simp

theorem OnlyTransport.ofRaise (r : Fault) (s : State) : OnlyTransport s (raise r s).result := by
  refine ⟨rfl, .inl rfl, ?_, id⟩
  by_cases h : r ∈ s.faults
  · simp [raise, h]
  · exact .inr ⟨r, h, by simp [raise, h]⟩

theorem OnlyTransport.ofEmit (x : Symbol) (s : State) : OnlyTransport s (emit x s).result := by
  rcases emit_cases x s with ⟨-, h⟩ | ⟨-, h⟩ <;> rw [h]
  · exact ⟨rfl, .inr ⟨x, rfl, rfl⟩, .inl rfl, id⟩
  · exact .ofRaise _ _

/-! ### T_WRITE, T_READ, T_GETRX -/

/-- T_WRITE refuses, ignores, or loads the frame and emits BREAK. -/
theorem transportWrite_cases (a : LinAddr) (p : List Byte) (s : State) :
    (s.cfg.maxPayload < p.length ∧ transportWrite a p s = refuse .writeTooLong s)
    ∨ (p.length ≤ s.cfg.maxPayload ∧ (s.t.busState ≠ .ready ∨ p = []) ∧ transportWrite a p s = .go s)
    ∨ (p.length ≤ s.cfg.maxPayload ∧ s.t.busState = .ready ∧ p ≠ []
      ∧ transportWrite a p s = emit .brk (s.withT (startWrite s.cfg a p s.t))) := by
  unfold transportWrite
  by_cases h1 : s.cfg.maxPayload < p.length
  · simp [h1]
  · by_cases h2 : s.t.busState ≠ .ready ∨ p = []
    · exact .inr (.inl ⟨by omega, h2, by rw [if_neg h1, if_pos h2]⟩)
    · refine .inr (.inr ⟨by omega, ?_, ?_, by rw [if_neg h1, if_neg h2]⟩)
      · exact Decidable.byContradiction fun h => h2 (.inl h)
      · exact fun h => h2 (.inr h)

/-- T_READ ignores, or loads the header and emits BREAK. -/
theorem transportRead_cases (a : LinAddr) (s : State) :
    (s.t.busState ≠ .ready ∧ transportRead a s = .go s)
    ∨ (s.t.busState = .ready
      ∧ transportRead a s = emit .brk (s.withT (startRead s.cfg a s.t))) := by
  unfold transportRead
  by_cases h : s.t.busState = .ready <;> simp [h]

/-- T_GETRX returns nothing in Idle, else the received payload, and ends the reception. -/
theorem transportGetRx_cases (s : State) :
    (s.t.busState = .idle ∧ transportGetRx s = ([], s))
    ∨ (s.t.busState ≠ .idle
      ∧ transportGetRx s = (receivedPayload s.cfg s.t, s.withT (endReception s.t))) := by
  unfold transportGetRx
  by_cases h : s.t.busState = .idle <;> simp [h]

theorem OnlyTransport.ofWrite (a : LinAddr) (p : List Byte) (s : State) :
    OnlyTransport s (transportWrite a p s).result := by
  rcases transportWrite_cases a p s with ⟨-, h⟩ | ⟨-, -, h⟩ | ⟨-, -, -, h⟩ <;> rw [h]
  · exact ⟨rfl, .inl rfl, .inl rfl, by simp [refuse]⟩
  · exact .refl _
  · exact (OnlyTransport.ofEmit _ _).withT

theorem OnlyTransport.ofRead (a : LinAddr) (s : State) :
    OnlyTransport s (transportRead a s).result := by
  rcases transportRead_cases a s with ⟨-, h⟩ | ⟨-, h⟩ <;> rw [h]
  · exact .refl _
  · exact (OnlyTransport.ofEmit _ _).withT

theorem OnlyTransport.ofGetRx (s : State) : OnlyTransport s (transportGetRx s).2 := by
  rcases transportGetRx_cases s with ⟨-, h⟩ | ⟨-, h⟩ <;> rw [h]
  · exact .refl _
  · exact .ofWithT _ _

/-- T_GETRX writes no history. -/
theorem transportGetRx_history (s : State) : (transportGetRx s).2.wire = s.wire
    ∧ (transportGetRx s).2.faults = s.faults ∧ (transportGetRx s).2.refused = s.refused := by
  rcases transportGetRx_cases s with ⟨-, h⟩ | ⟨-, h⟩ <;> rw [h] <;> simp

/-- In a clean state T_WRITE goes on clean or has ended the step in a state that is not. -/
theorem transportWrite_clean (a : LinAddr) (p : List Byte) {s : State} (hf : s.faults = [])
    (hr : s.refused = none) :
    (∃ u, transportWrite a p s = .go u ∧ u.faults = [] ∧ u.refused = none)
    ∨ (∃ u, transportWrite a p s = .stop u ∧ (u.faults ≠ [] ∨ u.refused ≠ none)) := by
  rcases transportWrite_cases a p s with ⟨-, h⟩ | ⟨-, -, h⟩ | ⟨-, -, -, h⟩ <;> rw [h]
  · exact .inr ⟨_, rfl, by simp⟩
  · exact .inl ⟨_, rfl, hf, hr⟩
  · rcases emit_cases .brk (s.withT (startWrite s.cfg a p s.t)) with ⟨-, h⟩ | ⟨-, h⟩ <;> rw [h]
    · exact .inl ⟨_, rfl, hf, hr⟩
    · exact .inr ⟨_, rfl, .inl (by simp [hf])⟩

/-- In a clean state T_READ goes on clean or has ended the step in a state that is not. -/
theorem transportRead_clean (a : LinAddr) {s : State} (hf : s.faults = []) (hr : s.refused = none) :
    (∃ u, transportRead a s = .go u ∧ u.faults = [] ∧ u.refused = none)
    ∨ (∃ u, transportRead a s = .stop u ∧ (u.faults ≠ [] ∨ u.refused ≠ none)) := by
  rcases transportRead_cases a s with ⟨-, h⟩ | ⟨-, h⟩ <;> rw [h]
  · exact .inl ⟨_, rfl, hf, hr⟩
  · rcases emit_cases .brk (s.withT (startRead s.cfg a s.t)) with ⟨-, h⟩ | ⟨-, h⟩ <;> rw [h]
    · exact .inl ⟨_, rfl, hf, hr⟩
    · exact .inr ⟨_, rfl, .inl (by simp [hf])⟩

/-! ### The byte pump -/

/-- TX_DONE's body in the six situations of R128. -/
theorem txDoneBody_cases (s : State) :
    ((s.t.busState = .sending ∨ (s.t.busState = .receiving ∧ s.t.rxEnable = false))
      ∧ s.t.txIdx < s.t.txLen ∧ txDoneBody s = pumpByte s)
    ∨ (s.t.busState = .sending ∧ ¬ s.t.txIdx < s.t.txLen
      ∧ txDoneBody s = .go (s.withT { s.t with busState := .ready }))
    ∨ (s.t.busState = .receiving ∧ s.t.rxEnable = false ∧ ¬ s.t.txIdx < s.t.txLen
      ∧ txDoneBody s = .go (s.withT { s.t with rxEnable := true, echoPending := true }))
    ∨ ((s.t.busState = .idle ∨ s.t.busState = .ready
        ∨ (s.t.busState = .receiving ∧ s.t.rxEnable = true)) ∧ txDoneBody s = .go s) := by
  unfold txDoneBody
  cases hb : s.t.busState with
  | idle => simp
  | ready => simp
  | sending => by_cases hl : s.t.txIdx < s.t.txLen <;> simp [hl]
  | receiving =>
    cases hx : s.t.rxEnable with
    | true => simp
    | false => by_cases hl : s.t.txIdx < s.t.txLen <;> simp [hl]

/-- RX_BYTE in the four situations of R129. -/
theorem receiveByte_cases (b : Byte) (s : State) :
    ((s.t.busState ≠ .receiving ∨ s.t.rxEnable = false) ∧ receiveByte b s = .go s)
    ∨ (s.t.busState = .receiving ∧ s.t.rxEnable = true
      ∧ ((s.t.echoPending = true ∧ b = s.t.activePid
          ∧ receiveByte b s = .go (s.withT { s.t with echoPending := false }))
        ∨ (¬ (s.t.echoPending = true ∧ b = s.t.activePid)
          ∧ ((s.t.rxCount.toNat = s.cfg.rxCap ∧ receiveByte b s = raise .rxOverflow s)
            ∨ (s.t.rxCount.toNat ≠ s.cfg.rxCap
              ∧ receiveByte b s = .go (s.withT { s.t with
                rxBuf := s.t.rxBuf.setIfInBounds s.t.rxCount.toNat b
                rxCount := s.t.rxCount + 1 })))))) := by
  unfold receiveByte
  by_cases h1 : s.t.busState ≠ .receiving ∨ s.t.rxEnable = false
  · exact .inl ⟨h1, by rw [if_pos h1]⟩
  · refine .inr ⟨Decidable.byContradiction fun h => h1 (.inl h),
      Decidable.byContradiction fun h => h1 (.inr (by simpa using h)), ?_⟩
    rw [if_neg h1]
    by_cases h2 : s.t.echoPending = true ∧ b = s.t.activePid
    · exact .inl ⟨h2.1, h2.2, by rw [if_pos h2]⟩
    · refine .inr ⟨h2, ?_⟩
      rw [if_neg h2]
      by_cases h3 : s.t.rxCount.toNat = s.cfg.rxCap
      · exact .inl ⟨h3, by rw [if_pos h3]⟩
      · exact .inr ⟨h3, by rw [if_neg h3]⟩

theorem OnlyTransport.ofTxDone (s : State) : OnlyTransport s (txDoneBody s).result := by
  rcases txDoneBody_cases s with ⟨-, -, h⟩ | ⟨-, -, h⟩ | ⟨-, -, -, h⟩ | ⟨-, h⟩ <;> rw [h]
  · exact (OnlyTransport.ofEmit _ _).withT
  · exact .ofWithT _ _
  · exact .ofWithT _ _
  · exact .refl _

theorem OnlyTransport.ofRxByte (b : Byte) (s : State) : OnlyTransport s (receiveByte b s).result := by
  rcases receiveByte_cases b s with ⟨-, h⟩ | ⟨-, -, ⟨-, -, h⟩ | ⟨-, ⟨-, h⟩ | ⟨-, h⟩⟩⟩ <;> rw [h]
  · exact .refl _
  · exact .ofWithT _ _
  · exact .ofRaise _ _
  · exact .ofWithT _ _

end Sys2Proof.Machine
end

