-- ==== Sys2Proof/Laws/Discovery.lean ====
section
/-! SUPPORT. What each shared operation of Machine/Discovery.lean can do, said once, and what the evaluations
leave alone. -/

namespace Sys2Proof.Machine

/-- `t` is `s` but for the registry, the discovery registers, the mode, the limits and the slot. -/
structure OnlyDiscovery (s t : State) : Prop where
  rest : t = { s with node := t.node, motor := t.motor, d := t.d, desk := t.desk, op := t.op }
  desk : t.desk = { s.desk with mode := t.desk.mode, lower := t.desk.lower, upper := t.desk.upper }
  op : t.op = { s.op with slot := t.op.slot }

theorem OnlyDiscovery.refl (s : State) : OnlyDiscovery s s := ⟨rfl, rfl, rfl⟩

theorem OnlyDiscovery.trans {s t u : State} (h : OnlyDiscovery s t) (k : OnlyDiscovery t u) :
    OnlyDiscovery s u := by
  obtain ⟨a, b, c⟩ := h
  obtain ⟨a', b', c'⟩ := k
  refine ⟨?_, ?_, ?_⟩
  · rw [a', a]
  · rw [b', b]
  · rw [c', c]

theorem OnlyDiscovery.ofWithD (s : State) (v : Discovery) : OnlyDiscovery s (s.withD v) := ⟨rfl, rfl, rfl⟩

theorem OnlyDiscovery.ofWithNode (s : State) (v : Vector NodeRecord 8) :
    OnlyDiscovery s (s.withNode v) := ⟨rfl, rfl, rfl⟩

theorem OnlyDiscovery.ofEnter (S : DMode) (s : State) : OnlyDiscovery s (enter S s) := ⟨rfl, rfl, rfl⟩

/-! ### Shared procedures -/

/-- `retry()`: again, or the abort when the count passes RETRY_MAX. -/
theorem retryRead_cases (S : DMode) (s : State) :
    (s.d.retry.toNat < s.cfg.retryMax ∧ retryRead S s
      = enter S (s.withD { s.d with retry := BitVec.ofNat 2 (s.d.retry.toNat + 1) }))
    ∨ (s.cfg.retryMax ≤ s.d.retry.toNat ∧ retryRead S s
      = enter .begin (s.withD { s.d with retry := BitVec.ofNat 2 (s.d.retry.toNat + 1) })) := by
  unfold retryRead
  by_cases h : s.cfg.retryMax < s.d.retry.toNat + 1
  · exact .inr ⟨by omega, by simp only [if_pos h]⟩
  · exact .inl ⟨by omega, by simp only [if_neg h]⟩

/-- `advance()`: D.Post1 after the last candidate, else D.Scan. -/
theorem advance_cases (s : State) :
    (s.d.cand.toNat + 1 = s.cfg.scanCount ∧ advance s
      = enter .post1 (s.withD { s.d with cand := BitVec.ofNat 4 (s.d.cand.toNat + 1) }))
    ∨ (s.d.cand.toNat + 1 ≠ s.cfg.scanCount ∧ advance s
      = enter .scan (s.withD { s.d with cand := BitVec.ofNat 4 (s.d.cand.toNat + 1) })) := by
  unfold advance
  by_cases h : s.d.cand.toNat + 1 = s.cfg.scanCount
  · exact .inl ⟨h, by simp only [if_pos h]⟩
  · exact .inr ⟨h, by simp only [if_neg h]⟩

/-- The candidate's record is changed, the others stay. -/
theorem updateNode_of_lt (f : NodeRecord → NodeRecord) {s : State} (h : s.d.cand.toNat < 8) :
    updateNode f s
      = s.withNode (s.node.set s.d.cand.toNat (f (s.node[s.d.cand.toNat]'h)) h) := by
  have e : s.node[s.d.cand.toNat]? = some (s.node[s.d.cand.toNat]'h) := by simp [h]
  simp only [updateNode, e]
  congr 1
  simp [Vector.set, Vector.setIfInBounds, Array.setIfInBounds, h]

theorem OnlyDiscovery.ofUpdateNode (f : NodeRecord → NodeRecord) (s : State) :
    OnlyDiscovery s (updateNode f s) := by
  unfold updateNode
  split
  · exact .ofWithNode _ _
  · exact .refl _

theorem OnlyDiscovery.ofRetryRead (S : DMode) (s : State) : OnlyDiscovery s (retryRead S s) := by
  rcases retryRead_cases S s with ⟨-, h⟩ | ⟨-, h⟩ <;> rw [h] <;>
    exact (OnlyDiscovery.ofWithD _ _).trans (.ofEnter _ _)

theorem OnlyDiscovery.ofAdvance (s : State) : OnlyDiscovery s (advance s) := by
  rcases advance_cases s with ⟨-, h⟩ | ⟨-, h⟩ <;> rw [h] <;>
    exact (OnlyDiscovery.ofWithD _ _).trans (.ofEnter _ _)

/-- A register state stores the value it was sent and goes on, or retries. -/
theorem evalRegister_cases (S next : DMode) (store : Byte → NodeRecord → NodeRecord) (r : List Byte)
    (s : State) :
    (∃ v, registerValue s.cfg S r = some v ∧ evalRegister S next store r s
      = enter next ((updateNode (store v) s).withD
        { (updateNode (store v) s).d with retry := 0 }))
    ∨ (registerValue s.cfg S r = none ∧ evalRegister S next store r s = retryRead S s) := by
  unfold evalRegister
  cases h : registerValue s.cfg S r <;> simp

theorem OnlyDiscovery.ofEvalRegister (S next : DMode) (store : Byte → NodeRecord → NodeRecord)
    (r : List Byte) (s : State) : OnlyDiscovery s (evalRegister S next store r s) := by
  rcases evalRegister_cases S next store r s with ⟨v, -, h⟩ | ⟨-, h⟩ <;> rw [h]
  · exact (OnlyDiscovery.ofUpdateNode _ _).trans ((OnlyDiscovery.ofWithD _ _).trans (.ofEnter _ _))
  · exact .ofRetryRead _ _

/-- Completion builds the motors' records and the limits and enters O.Begin at slot 0. -/
theorem completeDiscovery_eq (s : State) : completeDiscovery s = { s with
    motor := (buildMotors s).motor
    d := { s.d with discT := 0 }
    desk := { s.desk with
      mode := .operation .begin
      lower := (deriveLimits (buildMotors s)).desk.lower
      upper := (deriveLimits (buildMotors s)).desk.upper }
    op := { s.op with slot := 0 } } := by
  simp [completeDiscovery, setOMode, deriveLimits, buildMotors, State.withMotor, State.withD,
    State.withDesk, State.withOp]

theorem OnlyDiscovery.ofComplete (s : State) : OnlyDiscovery s (completeDiscovery s) := by
  rw [completeDiscovery_eq]; exact ⟨rfl, rfl, rfl⟩

/-- The mode the Startup class goes to, but for the completion. -/
theorem enter_mode (S : DMode) (s : State) : (enter S s).desk.mode = .startup S := rfl

/-! ### The registry's count of found nodes -/

/-- Changing a record without changing its validity keeps the count. -/
theorem foundCount_set_same (v : Vector NodeRecord 8) (k : Nat) (h : k < 8) (x : NodeRecord)
    (hv : (v[k]'h).valid = x.valid) :
    ((v.set k x h).toList.filter (·.valid)).length = (v.toList.filter (·.valid)).length := by
  have hl : k < v.toList.length := by simp; omega
  have e : v.toList[k].valid = x.valid := by simpa using hv
  rw [Vector.toList_set, List.set_eq_take_append_cons_drop, if_pos hl]
  conv_rhs => rw [← List.take_append_drop k v.toList]
  rw [List.drop_eq_getElem_cons hl]
  simp only [List.filter_append, List.filter_cons, e]
  split <;> simp

/-- Making an invalid record valid adds one. -/
theorem foundCount_set_new (v : Vector NodeRecord 8) (k : Nat) (h : k < 8) (x : NodeRecord)
    (hv : (v[k]'h).valid = false) (hx : x.valid = true) :
    ((v.set k x h).toList.filter (·.valid)).length = (v.toList.filter (·.valid)).length + 1 := by
  have hl : k < v.toList.length := by simp; omega
  have e : v.toList[k].valid = false := by simpa using hv
  rw [Vector.toList_set, List.set_eq_take_append_cons_drop, if_pos hl]
  conv_rhs => rw [← List.take_append_drop k v.toList]
  rw [List.drop_eq_getElem_cons hl]
  simp only [List.filter_append, List.filter_cons, e, hx]
  simp; omega

/-! ### The schedule -/

/-- The schedule's four situations (R161), and D.Begin's own step. -/
theorem discoveryStep_cases (S : DMode) (s : State) :
    (S = .begin ∧ discoveryStep S s = .go (stepBegin s))
    ∨ (S ≠ .begin
      ∧ ((s.d.discT.toNat < s.cfg.holdTicks ∧ discoveryStep S s = countTick s)
        ∨ (s.d.discT.toNat = s.cfg.holdTicks ∧ discoveryStep S s
          = (transportWrite s.cfg.diagTxAddr (request s.cfg s.d S) s).andThen countTick)
        ∨ (s.cfg.holdTicks < s.d.discT.toNat
          ∧ ((s.d.discT.toNat = s.cfg.holdTicks + s.cfg.readDelay ∧ discoveryStep S s
              = (transportRead s.cfg.diagRxAddr s).andThen countTick)
            ∨ (s.d.discT.toNat ≠ s.cfg.holdTicks + s.cfg.readDelay ∧ discoveryStep S s
              = evalState S (transportGetRx s).1 (transportGetRx s).2))))) := by
  unfold discoveryStep
  by_cases h0 : S = .begin
  · exact .inl ⟨h0, by rw [if_pos h0]⟩
  · refine .inr ⟨h0, ?_⟩
    rw [if_neg h0]
    simp only
    by_cases h1 : s.d.discT.toNat < s.cfg.holdTicks
    · exact .inl ⟨h1, by rw [if_pos h1]⟩
    · rw [if_neg h1]
      by_cases h2 : s.d.discT.toNat = s.cfg.holdTicks
      · exact .inr (.inl ⟨h2, by rw [if_pos h2]⟩)
      · rw [if_neg h2]
        by_cases h3 : s.d.discT.toNat = s.cfg.holdTicks + s.cfg.readDelay
        · exact .inr (.inr ⟨by omega, .inl ⟨h3, by rw [if_pos h3]⟩⟩)
        · exact .inr (.inr ⟨by omega, .inr ⟨h3, by rw [if_neg h3]⟩⟩)

end Sys2Proof.Machine
end

