-- ==== Sys2Proof/Laws/Facade.lean ====
section
/-! SUPPORT. What the admission checks and the per-motor selection of Machine/Facade.lean can do, said
once. -/

namespace Sys2Proof.Machine

/-- The guard's four answers, in the order of the checks (R299). -/
theorem moveGuard_cases (s : State) :
    (s.desk.busy = true ∧ moveGuard s = some .busy)
    ∨ (s.desk.busy = false ∧ (∀ m, s.desk.mode ≠ .operation m) ∧ moveGuard s = some .notReady)
    ∨ (s.desk.busy = false ∧ (∃ m, s.desk.mode = .operation m ∧ m ≠ .normal)
      ∧ moveGuard s = some .notIdle)
    ∨ (s.desk.busy = false ∧ s.desk.mode = .operation .normal ∧ moveGuard s = none) := by
  unfold moveGuard
  cases hb : s.desk.busy with
  | true => simp
  | false =>
    by_cases h2 : s.desk.mode.classOf = 2
    · obtain ⟨m, hm⟩ := (Mode.classOf_eq_two _).1 h2
      by_cases hn : m = .normal
      · subst hn; simp [hm]; decide
      · simp [hm, hn]; rw [← hm]; exact h2
    · have h3 : ∀ m, s.desk.mode ≠ .operation m := fun m e => h2 ((Mode.classOf_eq_two _).2 ⟨m, e⟩)
      simp [h3]; exact h2

/-- The target's four answers (R260). -/
theorem targetGuard_cases (t : Pos) (s : State) :
    (s.desk.upper.toNat < t.toNat ∧ targetGuard t s = some .limitUpper)
    ∨ (t.toNat ≤ s.desk.upper.toNat ∧ t.toNat < s.desk.lower.toNat
      ∧ targetGuard t s = some .limitLower)
    ∨ (t.toNat ≤ s.desk.upper.toNat ∧ s.desk.lower.toNat ≤ t.toNat
      ∧ withinStopDist s.cfg t s.desk.current = true ∧ targetGuard t s = some .belowMinDist)
    ∨ (t.toNat ≤ s.desk.upper.toNat ∧ s.desk.lower.toNat ≤ t.toNat
      ∧ withinStopDist s.cfg t s.desk.current = false ∧ targetGuard t s = none) := by
  unfold targetGuard
  by_cases h1 : s.desk.upper.toNat < t.toNat
  · exact .inl ⟨h1, if_pos h1⟩
  · rw [if_neg h1]
    by_cases h2 : t.toNat < s.desk.lower.toNat
    · exact .inr (.inl ⟨by omega, h2, if_pos h2⟩)
    · rw [if_neg h2]
      cases hw : withinStopDist s.cfg t s.desk.current with
      | true => exact .inr (.inr (.inl ⟨by omega, by omega, rfl, rfl⟩))
      | false => exact .inr (.inr (.inr ⟨by omega, by omega, rfl, rfl⟩))

/-- The unit range of the GET_MOTOR_* commands (R259). -/
theorem motorOfUnit_some {s : State} {u : BitVec 8} {k : Nat} (hk : k < 2) (hu : u.toNat = k)
    (hc : s.cfg.motorCount = 2) : motorOfUnit s u = some (s.motor[k]'hk) := by
  simp [motorOfUnit, hc, hu, hk]

theorem motorOfUnit_none {s : State} {u : BitVec 8} (hu : 2 ≤ u.toNat) (hc : s.cfg.motorCount = 2) :
    motorOfUnit s u = none := by
  simp [motorOfUnit, hc]; omega

end Sys2Proof.Machine
end

