-- ==== Sys2Proof/Laws/Lin.lean ====
section
/-! SUPPORT. One step of the LIN sum, the sum of a concatenation, and the bytes a frame load leaves. -/

namespace Sys2Proof.Machine

theorem linAdd_toNat (s x : Byte) : (linAdd s x).toNat
    = if 256 ≤ s.toNat + x.toNat then s.toNat + x.toNat - 255 else s.toNat + x.toNat := by
  have h1 := s.isLt
  have h2 := x.isLt
  simp only [linAdd]
  split <;> simp only [BitVec.toNat_ofNat] <;> omega

theorem linSum_append (seed : Byte) (a b : List Byte) :
    linSum seed (a ++ b) = linSum (linSum seed a) b := by
  induction a generalizing seed with
  | nil => rfl
  | cons x xs ih => exact ih _

/-- Loading `bs` from index `i` on leaves the bytes below `i` and those after the load. -/
theorem loadFrame_getElem (bs : List Byte) (i : Nat) (v : Vector Byte 11)
    (hl : i + bs.length ≤ 11) (k : Nat) (h : k < 11) :
    (loadFrame bs i v)[k] = if k < i then v[k] else (bs[k - i]?).getD v[k] := by
  induction bs generalizing i v with
  | nil => simp [loadFrame]
  | cons b bs ih =>
    simp only [loadFrame, List.length_cons] at hl ⊢
    rw [ih (i + 1) _ (by omega), Vector.getElem_setIfInBounds]
    by_cases h1 : k < i
    · rw [if_pos (by omega), if_pos h1, if_neg (by omega)]
    · rw [if_neg h1]
      by_cases h2 : k = i
      · subst h2; simp
      · obtain ⟨d, rfl⟩ : ∃ d, k = i + d + 1 := ⟨k - i - 1, by omega⟩
        have e1 : i + d + 1 - (i + 1) = d := by omega
        have e2 : i + d + 1 - i = d + 1 := by omega
        rw [if_neg (by omega), e1, e2, if_neg (by omega)]
        simp

/-- `registerValue` reads byte 3 of a response whose byte 2 is the state's register id. -/
theorem registerValue_some {c : Config} {S : DMode} {r : List Byte} {reg v : Byte}
    (hreg : regOf c S = some reg) (h2 : r[2]? = some reg) (h3 : r[3]? = some v) :
    registerValue c S r = some v := by
  match r, h2, h3 with
  | _ :: _ :: e :: w :: _, h2, h3 => simp at h2 h3; simp [registerValue, hreg, h2, h3]
  | [], h2, _ => simp at h2
  | [_], h2, _ => simp at h2
  | [_, _], h2, _ => simp at h2
  | [_, _, _], _, h3 => simp at h3

/-- Any other response has no register value. -/
theorem registerValue_none {c : Config} {S : DMode} {r : List Byte} {reg : Byte}
    (hreg : regOf c S = some reg) (h : r.length < 4 ∨ r[2]? ≠ some reg) :
    registerValue c S r = none := by
  match r, h with
  | a :: b :: e :: w :: more, h =>
    have he : e ≠ reg := by
      rcases h with h | h
      · simp at h; omega
      · simpa using h
    simp [registerValue, hreg, he]
  | [], _ => simp [registerValue, hreg]
  | [_], _ => simp [registerValue, hreg]
  | [_, _], _ => simp [registerValue, hreg]
  | [_, _, _], _ => simp [registerValue, hreg]

end Sys2Proof.Machine
end

