-- ==== Sys2Proof/Laws/Operation.lean ====
section
/-! SUPPORT. What each shared operation of Machine/Operation.lean can do, said once, and
what the desk state machine leaves alone. -/

namespace Sys2Proof.Machine

/-! ### The predicates -/

theorem withinStopDist_iff (c : Config) (x y : Pos) : withinStopDist c x y = true
    ↔ x.toNat ≤ y.toNat + c.stopDist.toNat ∧ y.toNat ≤ x.toNat + c.stopDist.toNat := by
  unfold withinStopDist absDiff
  rw [decide_eq_true_iff]
  generalize x.toNat = a
  generalize y.toNat = b
  generalize c.stopDist.toNat = d
  omega

theorem remainingAtMostStop_iff (c : Config) (x y : Pos) :
    remainingAtMostStop c x y = true ↔ x.toNat ≤ y.toNat + c.stopDist.toNat := by
  unfold remainingAtMostStop
  rw [decide_eq_true_iff]
  omega

theorem posMin_toNat (x y : Pos) : (posMin x y).toNat = min x.toNat y.toNat := by
  unfold posMin; split <;> omega

theorem posMax_toNat (x y : Pos) : (posMax x y).toNat = max x.toNat y.toNat := by
  unfold posMax; split <;> omega

/-! ### Readings -/

/-- A reading is taken, or counted as an outage. -/
theorem readingOf_cases (c : Config) (r : List Byte) (m : MotorRecord) :
    (∃ lo hi code more, r = lo :: hi :: code :: more
      ∧ readingOf c r m = { m with pos := joinBytes hi lo, state := code, outage := 0 })
    ∨ (r.length < 3 ∧ readingOf c r m
      = { m with outage := BitVec.ofNat 8 (min c.outageMax (m.outage.toNat + 1)) }) := by
  match r with
  | lo :: hi :: code :: more => exact .inl ⟨lo, hi, code, more, rfl, rfl⟩
  | [] => exact .inr ⟨by simp, rfl⟩
  | [_] => exact .inr ⟨by simp, rfl⟩
  | [_, _] => exact .inr ⟨by simp, rfl⟩

/-- A reading keeps what discovery built. -/
theorem readingOf_keeps (c : Config) (r : List Byte) (m : MotorRecord) :
    (readingOf c r m).addr = m.addr ∧ (readingOf c r m).cap = m.cap
    ∧ (readingOf c r m).lower = m.lower ∧ (readingOf c r m).upper = m.upper := by
  rcases readingOf_cases c r m with ⟨_, _, _, _, -, h⟩ | ⟨-, h⟩ <;> rw [h] <;> simp

/-- Processing a reading updates one motor's record, and may then enter Rescue. -/
theorem process_cases (u : Fin 2) (r : List Byte) (s : State) :
    process u r s = s.withMotor (s.motor.set u (readingOf s.cfg r s.motor[u]))
    ∨ (3 ≤ r.length ∧ s.desk.mode.moving = true
      ∧ isBlocked s.cfg (readingOf s.cfg r s.motor[u]).state = true
      ∧ process u r s
        = enterRescue (s.withMotor (s.motor.set u (readingOf s.cfg r s.motor[u])))) := by
  unfold process detect
  simp only
  by_cases h3 : 3 ≤ r.length
  · rw [if_pos h3]
    cases hb : blockedWhileMoving
        (s.withMotor (s.motor.set u (readingOf s.cfg r s.motor[u]))) u with
    | false => exact .inl (by simp)
    | true =>
      refine .inr ⟨h3, ?_, ?_, by simp⟩ <;> simp [blockedWhileMoving] at hb
      · exact hb.2
      · exact hb.1
  · rw [if_neg h3]; exact .inl rfl

/-! ### The synchronised position -/

/-- The four cases of `pos_sel` (R224). -/
theorem posSel_cases (dir : Dir) (s : State) :
    (validReading s.motor[0] = true ∧ validReading s.motor[1] = true
      ∧ posSel dir s = if dir = .up then posMin s.motor[0].pos s.motor[1].pos
        else posMax s.motor[0].pos s.motor[1].pos)
    ∨ (validReading s.motor[0] = true ∧ validReading s.motor[1] = false
      ∧ posSel dir s = s.motor[0].pos)
    ∨ (validReading s.motor[0] = false ∧ validReading s.motor[1] = true
      ∧ posSel dir s = s.motor[1].pos)
    ∨ (validReading s.motor[0] = false ∧ validReading s.motor[1] = false
      ∧ posSel dir s = s.op.cmdPos) := by
  cases dir <;> cases h0 : validReading s.motor[0] <;> cases h1 : validReading s.motor[1] <;> simp [posSel, h0, h1]

/-! ### The desk state machine -/

/-- `t` is `s` but for the target, the mode, the calibration flag and the operation registers other than the
slot. -/
structure OnlyDesk (s t : State) : Prop where
  rest : t = { s with desk := t.desk, op := t.op }
  desk : t.desk
    = { s.desk with target := t.desk.target, mode := t.desk.mode, calibReq := t.desk.calibReq }
  slot : t.op.slot = s.op.slot
  faultDir : t.op.faultDir = s.op.faultDir

theorem OnlyDesk.ofTransition (m : OMode) (s : State) : OnlyDesk s (dsmTransition m s) := by
  cases m <;> simp only [dsmTransition, dsmBegin, dsmNormal, dsmAnnouncing, dsmMovingUp, dsmMovingDown,
    dsmMovingSlow, dsmMovingStop, dsmCalibrating, dsmCalibratingDone, dsmRescue, enterSlow, setOMode,
    snapTarget, leaveRescue] <;> (try split) <;> (try split) <;> (try split) <;>
    exact ⟨rfl, rfl, rfl, rfl⟩

/-- The step is the transition, followed by the command of the mode after it unless Rescue goes on. -/
theorem dsmStep_cases (m : OMode) (s : State) :
    dsmStep m s = dsmTransition m s
    ∨ ∃ m', (dsmTransition m s).desk.mode = .operation m'
      ∧ dsmStep m s = setCommand m' (dsmTransition m s) := by
  simp only [dsmStep]
  cases h : (dsmTransition m s).desk.mode with
  | idle => exact .inl rfl
  | startup S => exact .inl rfl
  | operation m' =>
    by_cases hr : m = .rescue ∧ m' = .rescue
    · exact .inl (if_pos hr)
    · exact .inr ⟨m', rfl, if_neg hr⟩

theorem OnlyDesk.ofStep (m : OMode) (s : State) : OnlyDesk s (dsmStep m s) := by
  obtain ⟨a, b, c, d⟩ := OnlyDesk.ofTransition m s
  rcases dsmStep_cases m s with h | ⟨m', -, h⟩ <;> rw [h]
  · exact ⟨a, b, c, d⟩
  · exact ⟨by simp only [setCommand, State.withOp]; rw [a], b, c, d⟩

/-! ### The cycle -/

/-- The slot's action, then the next slot; an action that ends the step keeps the slot. -/
theorem operationStep_cases (m : OMode) (s : State) :
    (∃ u, slotAction s.op.slot.toNat m s = .go u
      ∧ operationStep m s = .go (u.withOp { u.op with slot := nextSlot s.cfg s.op.slot }))
    ∨ (∃ u, slotAction s.op.slot.toNat m s = .stop u ∧ operationStep m s = .stop u) := by
  unfold operationStep
  cases h : slotAction s.op.slot.toNat m s <;> simp

end Sys2Proof.Machine
end

