-- ==== Sys2Proof/Tests/Slice0.lean ====
section
/-! SUPPORT. The model's own tests. Expected values are those of 95_test_vectors.md (the vector's name stands in
the comment) or of the encoding tables; the configuration is that file's test configuration TC. The theorems
`witness_…` show states that meet the hypotheses of a statement. -/

namespace Sys2Proof.Tests

open Machine Claims

/-! ## Fixtures -/

/-- A fixed diagnostic frame of TC. -/
def diagFrame (e : Byte) : Vector Byte 8 := #v[0x7F, 0xC3, e, 0xFF, 0xFF, 0xFF, 0xFF, 0xFF]

/-- The test configuration TC (95_test_vectors.md 0.1). -/
def tc : Config := { Config.hardware with
  addrMotorL := 0x01, addrMotorR := 0x02, addrHeartbeat := 0x03, addrBroadcast := 0x04
  hbPayload := [0x5A]
  instrIdle := 0xA0, instrAnnounce := 0xA1, instrUp := 0xA2, instrDown := 0xA3
  instrSlow := 0xA4, instrStop := 0xA5, instrCalibrate := 0xA6, instrCalibrateStop := 0xA7
  blockedStates := [0xB1], stateCalibrated := 0xB2, stopDist := 140
  scanNad := #v[0x10, 0x11, 0x12, 0x13, 0x14, 0x15, 0x16, 0x17]
  subScan := 0xC0, subRead := 0xC1, subWrite := 0xC2, subEcho := 0xC3
  regStatus := 0xD0, regUpperHi := 0xD1, regUpperLo := 0xD2
  regLowerHi := 0xD3, regLowerLo := 0xD4, regIdent := 0xD5
  diagFrameAnn1 := diagFrame 0xE1, diagFrameAnn2 := diagFrame 0xE2
  diagFramePre1 := diagFrame 0xE3, diagFramePre2 := diagFrame 0xE4
  diagFramePost1 := diagFrame 0xE5, diagFramePost2 := diagFrame 0xE6
  beginAtLimitNext := .normal }

/-- After RESET, under TC. -/
def cold : State := State.reset.withCfg tc

/-- After RESET and INIT 1, under TC. -/
def ready : State := cold.withT { cold.t with busState := .ready }

/-- Discovery in state `S` at tick `k` of its schedule. -/
def disc (S : DMode) (k : BitVec 3) : State :=
  (ready.withDesk { ready.desk with mode := .startup S, busy := true }).withD { ready.d with discT := k }

/-- Operation in mode `m` at slot `k`, with the motors of P1 (95_test_vectors.md 3.2). -/
def oper (m : OMode) (k : BitVec 5) : State :=
  (((ready.withDesk ⟨600, 6300, 3000, 3000, .operation m, false, decide (1 ≤ k.toNat ∧ k.toNat ≤ 11)⟩).withOp
    { ready.op with slot := k }).withMotor
    #v[⟨1, 0, 3000, 0x21, 0, 500, 6500⟩, ⟨2, 0, 3000, 0x22, 0, 600, 6300⟩])

/-- `bytes` put into a vector from index `i` on. -/
def fill {n : Nat} : List Byte → Nat → Vector Byte n → Vector Byte n
  | [], _, v => v
  | b :: bs, i, v => fill bs (i + 1) (v.setIfInBounds i b)

/-- Listening for the answer of `a`, with `bytes` received. -/
def heard (a : LinAddr) (bytes : List Byte) (s : State) : State :=
  s.withT { s.t with
    busState := .receiving, rxEnable := true, activePid := pid a
    rxBuf := fill bytes 0 s.t.rxBuf, rxCount := BitVec.ofNat 4 bytes.length }

/-- The state after an instruction, if there is one. -/
def after (i : Instr) (s : State) : Option State :=
  match exec i s with
  | .next t => some t
  | _ => none

/-- A field of the state after an instruction. -/
def see {α : Type} (f : State → α) (i : Instr) (s : State) : Option α := (after i s).map f

/-- The response to a command. -/
def answerOf (i : Instr) (s : State) : Option RespWord := (after i s).bind (·.resp)

/-- What T_GETRX returns. -/
def payloadOf (s : State) : Option (List Byte) := (after .tGetRx s).bind (·.uopResult)

/-- One step ended in a refusal or a fault. -/
def stopOf (s : State) : Option (Fault ⊕ Refusal) :=
  match step s with
  | .next _ => none
  | .fault f => some (.inl f)
  | .refused r => some (.inr r)

/-! ## Well-formedness -/

/-- T_WRITE with nine bytes is no term of the trace language (R125; opcode_table.json). -/
theorem test_wellFormed_refuses_nine_bytes :
    Instr.wellFormed (.tWrite 3 (List.replicate 9 0)) = false
    ∧ Instr.wellFormed (.tWrite 3 (List.replicate 8 0)) = true := by decide

/-- TC is well formed, and holds R7's values (95_test_vectors.md 0.1). -/
theorem test_tc_well_formed : configWellFormed tc = true ∧ tc.tableValues = true := by decide

/-- R8 (a). -/
theorem test_config_refuses_equal_addresses :
    configWellFormed { tc with addrMotorR := 0x3C } = false := by decide

/-- R8 (b), at both ends. -/
theorem test_config_refuses_heartbeat_length :
    configWellFormed { tc with hbPayload := [] } = false
    ∧ configWellFormed { tc with hbPayload := List.replicate 9 0 } = false
    ∧ configWellFormed { tc with hbPayload := List.replicate 8 0 } = true := by decide

/-- R8 (c). -/
theorem test_config_refuses_equal_nads :
    configWellFormed { tc with scanNad := Vector.replicate 8 0x10 } = false := by decide

/-- R8 (d). -/
theorem test_config_refuses_begin_mode :
    configWellFormed { tc with beginAtLimitNext := .movingUp } = false
    ∧ configWellFormed { tc with beginAtLimitNext := .movingDown } = false
    ∧ configWellFormed { tc with beginAtLimitNext := .movingSlow } = false
    ∧ configWellFormed { tc with beginAtLimitNext := .rescue } = false
    ∧ configWellFormed { tc with beginAtLimitNext := .movingStop } = true := by decide

/-- R8 (e). -/
theorem test_config_refuses_blocked_calibrated :
    configWellFormed { tc with blockedStates := [0xB1, 0xB2] } = false := by decide

/-! ## Decoding: words written out from 30_encoding.md R80, R83 to R86 -/

/-- R83's opcodes, operands in the bits R80 gives them (E1 to E8). -/
theorem test_decode_commands :
    decodeCmd 0x01000001 = .init true ∧ decodeCmd 0x01000000 = .init false
    ∧ decodeCmd 0x01FF0003 = .init true ∧ decodeCmd 0x02000000 = .startDiscovery
    ∧ decodeCmd 0x03000000 = .getBusy ∧ decodeCmd 0x04000000 = .getMode
    ∧ decodeCmd 0x05000000 = .getDrift ∧ decodeCmd 0x06000000 = .getPosition
    ∧ decodeCmd 0x07000000 = .getLowerLimit ∧ decodeCmd 0x08000000 = .getUpperLimit
    ∧ decodeCmd 0x11000000 = .requestCalibration ∧ decodeCmd 0x12000000 = .requestHalt := by decide

theorem test_decode_unit_commands :
    decodeCmd 0x09FF0000 = .getMotorState 255 ∧ decodeCmd 0x0A010000 = .getMotorPosition 1
    ∧ decodeCmd 0x0B001234 = .getMotorLowerLimit 0 ∧ decodeCmd 0x0C020000 = .getMotorUpperLimit 2
    ∧ decodeCmd 0x0D800000 = .getMotorAddress 128 ∧ decodeCmd 0x0E01FFFF = .getMotorCapability 1
    ∧ decodeCmd 0x100001F4 = .requestPosition 500 ∧ decodeCmd 0x10FF0FA0 = .requestPosition 4000 := by
  decide

/-- R84's reserved opcodes, each row at its first and last (E9). -/
theorem test_decode_reserved_opcodes :
    decodeCmd 0x00000000 = .reservedOpcode00 ∧ decodeCmd 0x0F000000 = .reservedOpcode0F
    ∧ decodeCmd 0x13000000 = .reservedOpcode13
    ∧ decodeCmd 0x14000000 = .reservedOpcode14 0 ∧ decodeCmd 0x17000000 = .reservedOpcode14 3
    ∧ decodeCmd 0x18000000 = .reservedOpcode18 0 ∧ decodeCmd 0x1F000000 = .reservedOpcode18 7
    ∧ decodeCmd 0x20000000 = .reservedOpcode20 0 ∧ decodeCmd 0x3F000000 = .reservedOpcode20 0x1F
    ∧ decodeCmd 0x40000000 = .reservedOpcode40 0 ∧ decodeCmd 0x7F000000 = .reservedOpcode40 0x3F
    ∧ decodeCmd 0x80000000 = .reservedOpcode80 0 ∧ decodeCmd 0xFF123456 = .reservedOpcode80 0x7F := by
  decide

/-- R85's kinds (E13 to E17). -/
theorem test_decode_events :
    decodeEvt 0x1000 = .tick ∧ decodeEvt 0x1FFF = .tick ∧ decodeEvt 0x2000 = .txDone
    ∧ decodeEvt 0x307D = .rxByte 0x7D ∧ decodeEvt 0x3A7D = .rxByte 0x7D ∧ decodeEvt 0xF000 = .reset
    ∧ decodeEvt 0x0000 = .reservedEvent0
    ∧ decodeEvt 0x4000 = .reservedEvent4 0 ∧ decodeEvt 0x7FFF = .reservedEvent4 3
    ∧ decodeEvt 0x8000 = .reservedEvent8 0 ∧ decodeEvt 0xB000 = .reservedEvent8 3
    ∧ decodeEvt 0xC000 = .reservedEventC 0 ∧ decodeEvt 0xD000 = .reservedEventC 1
    ∧ decodeEvt 0xE123 = .reservedEventE := by decide

/-- R86's codes. -/
theorem test_decode_microops :
    decode (.uop 0x01 3 [0x5A]) = .ok (.tWrite 3 [0x5A]) ∧ decode (.uop 0x02 1 []) = .ok (.tRead 1)
    ∧ decode (.uop 0x03 0 []) = .ok .tGetRx
    ∧ decode (.uop 0x04 0 []) = .error (.unknownMicroOp 0x04) := by decide

/-- The host's entry point: one word of each format; no other width is a row's. -/
theorem test_decodeTableWord :
    decodeTableWord 32 0x100001F4 = some (.requestPosition 500)
    ∧ decodeTableWord 16 0x3A7D = some (.rxByte 0x7D) ∧ decodeTableWord 8 0x03 = some .tGetRx
    ∧ decodeTableWord 8 0x04 = none ∧ decodeTableWord 24 0 = none := by decide

/-- R98's codes, one of each nibble run, and R43's class (E18). -/
theorem test_mode_codes :
    Mode.idle.code = 0x00 ∧ (Mode.startup .begin).code = 0x10 ∧ (Mode.startup .scan).code = 0x15
    ∧ (Mode.startup .writeId).code = 0x1B ∧ (Mode.startup .post2).code = 0x1D
    ∧ (Mode.operation .begin).code = 0x20 ∧ (Mode.operation .normal).code = 0x21
    ∧ (Mode.operation .movingSlow).code = 0x25 ∧ (Mode.operation .rescue).code = 0x29
    ∧ (Mode.startup .post2).classOf = 1 ∧ (Mode.operation .rescue).classOf = 2 := by decide

/-! ## LIN arithmetic -/

/-- Table V1, the corners and the addresses TC uses. -/
theorem test_pid :
    [0x00, 0x01, 0x02, 0x03, 0x04, 0x15, 0x1F, 0x20, 0x3B, 0x3C, 0x3D, 0x3F].map pid
      = [0x80, 0xC1, 0x42, 0x03, 0xC4, 0x55, 0x1F, 0x20, 0xFB, 0x3C, 0x7D, 0xBF] := by decide

/-- Table V2, classic: the folds of 0x100 and 0x1FE. -/
theorem test_checksum_classic :
    checksum 0 [0xFF, 0x01] = 0xFE ∧ checksum 0 [0x80, 0x80] = 0xFE ∧ checksum 0 [0xFF, 0xFF] = 0x00
    ∧ checksum 0 [0x4A, 0x55, 0x93, 0xE5] = 0xE6 ∧ checksum 0 (0x10 :: 0xC0 :: List.replicate 6 0xFF) = 0x2F := by
  decide

/-- Table V2, enhanced. -/
theorem test_checksum_enhanced :
    checksum 0x03 [0x5A] = 0xA2 ∧ checksum 0xC4 [0xB8, 0x0B, 0xA0] = 0xD6
    ∧ checksum 0xC1 [0x64, 0x00, 0x00] = 0xD9 ∧ checksum 0xBF (List.replicate 8 0xFF) = 0x40 := by decide

/-! ## Transport -/

/-- T13: 55 03 5A A2 loaded, BREAK emitted. -/
theorem test_tWrite_loads_and_breaks :
    see (fun t => (t.wire, t.t.txFrame.toList.take 4, t.t.txLen, t.t.busState)) (.tWrite 0x03 [0x5A]) ready
      = some ([.brk], [0x55, 0x03, 0x5A, 0xA2], 4, .sending) := by decide

/-- T19 marks the refusal; T18 and T20 are ignored. -/
theorem test_tWrite_edges :
    see (·.refused) (.tWrite 0x03 (List.replicate 9 0)) ready = some (some .writeTooLong)
    ∧ after (.tWrite 0x03 []) ready = some ready ∧ after (.tWrite 0x03 [0x5A]) cold = some cold := by decide

/-- Table V3: the header of T_READ(0x01). -/
theorem test_tRead_header :
    see (fun t => (t.wire, t.t.txFrame.toList.take 2, t.t.txLen, t.t.busState, t.t.rxEnable)) (.tRead 0x01) ready
      = some ([.brk], [0x55, 0xC1], 2, .receiving, false) := by decide

/-- T9 and T10: the enhanced checksum, not the classic one, on a motor's answer. -/
theorem test_tGetRx_motor :
    payloadOf (heard 0x01 [0x64, 0x00, 0x00, 0xD9] ready) = some [0x64, 0x00, 0x00]
    ∧ payloadOf (heard 0x01 [0x64, 0x00, 0x00, 0x9B] ready) = some [] := by decide

/-- T2, T7, T6, T11: the classic checksum on a diagnostic answer, 9 bytes at most, 2 at least. -/
theorem test_tGetRx_diagnostic :
    payloadOf (heard 0x3D [0x01, 0xFE] ready) = some [0x01]
    ∧ payloadOf (heard 0x3D [1, 2, 3, 4, 5, 6, 7, 8, 0xDB] ready) = some [1, 2, 3, 4, 5, 6, 7, 8]
    ∧ payloadOf (heard 0x3D [0x01] ready) = some [] ∧ payloadOf (heard 0x3D [0x01, 0x81] ready) = some []
    ∧ payloadOf cold = some [] := by decide

/-- A write frame at its last byte. -/
def pumping : State :=
  ready.withT { ready.t with
    busState := .sending, txInflight := true, txLen := 4, txIdx := 3, activePid := 0x03
    txFrame := fill [0x55, 0x03, 0x5A, 0xA2] 0 ready.t.txFrame }

/-- R128: the last byte, then Ready. -/
theorem test_txDone_pumps_and_ends :
    see (fun t => (t.wire, t.t.txIdx, t.t.txInflight)) .txDone pumping = some ([.byte 0xA2], 4, true)
    ∧ see (fun t => (t.wire, t.t.busState, t.t.txInflight)) .txDone
        (pumping.withT { pumping.t with txIdx := 4 }) = some ([], .ready, false) := by decide

/-- T14's last step, and the symbol that is not in flight (U34). -/
theorem test_txDone_outside_a_frame :
    see (fun t => (t.wire, t.t.txInflight)) .txDone (ready.withT { ready.t with txInflight := true })
      = some ([], false)
    ∧ stopOf (ready.withInput [.evt 0x2000]) = some (.inr .txDoneNotEnabled) := by decide

/-- T1, T4: the first 7D is the echo. -/
theorem test_rxByte_echo :
    see (fun t => (t.t.rxCount, t.t.echoPending)) (.rxByte 0x7D)
      ((heard 0x3D [] ready).withT { (heard 0x3D [] ready).t with echoPending := true }) = some (0, false)
    ∧ see (fun t => (t.t.rxCount, t.t.rxBuf[0])) (.rxByte 0x7D) (heard 0x3D [] ready) = some (1, 0x7D) := by
  decide

/-- T8 and T17. -/
theorem test_rxByte_overflow_and_drop :
    see (·.faults) (.rxByte 0x0A) (heard 0x3D [1, 2, 3, 4, 5, 6, 7, 8, 9] ready) = some [.rxOverflow]
    ∧ after (.rxByte 0x12) ready = some ready := by decide

/-! ## TICK -/

/-- DS1's last tick (D.Begin to D.Ann1, no frame), the request of P1's A5, and OP25 (a blocked report in
O.MovingUp). -/
theorem test_tick_schedules :
    see (fun t => (t.desk.mode.code, t.d.discT, t.wire)) .tick (disc .begin 2) = some (0x11, 0, [])
    ∧ see (fun t => t.t.txFrame.toList) .tick (disc .scan 2)
      = some [0x55, 0x3C, 0x10, 0xC0, 0xFF, 0xFF, 0xFF, 0xFF, 0xFF, 0xFF, 0x2F]
    ∧ see (fun t => (t.desk.mode.code, t.op.faultDir, t.op.rescueT, t.motor[0].pos)) .tick
        (heard 0x01 [0xD8, 0x04, 0xB1, checksum 0xC1 [0xD8, 0x04, 0xB1]] (oper .movingUp 2))
      = some (0x29, .up, 0, 1240) := by decide

/-- One DSM step: the mode code, the target, the command, after setting current, target, and both positions. -/
def dsmAt (m : OMode) (current target left right : Pos) (f : State → State := id) : Option (Byte × Pos × Byte × Pos) :=
  see (fun t => (t.desk.mode.code, t.desk.target, t.op.cmdInstr, t.op.cmdPos)) .tick
    (f (((oper m 9).withDesk { (oper m 9).desk with current := current, target := target }).withMotor
      #v[⟨1, 0, left, 0x21, 0, 500, 6500⟩, ⟨2, 0, right, 0x22, 0, 600, 6300⟩]))

/-- OP1 to OP4, OP7 to OP15, OP19 to OP21, under TC. -/
theorem test_tick_desk_machine :
    [dsmAt .begin 3000 0 3000 3000, dsmAt .begin 600 0 600 600,
      dsmAt .normal 3000 3140 3000 3000, dsmAt .normal 3000 3141 3000 3000,
      dsmAt .announcing 3000 4000 3000 2990, dsmAt .announcing 3000 2000 3000 2990,
      dsmAt .announcing 3000 3000 3000 3000,
      dsmAt .movingUp 360 500 360 350, dsmAt .movingUp 359 500 359 350, dsmAt .movingUp 600 500 600 600,
      dsmAt .movingDown 1140 1000 1140 1150, dsmAt .movingDown 1141 1000 1141 1150,
      dsmAt .movingSlow 480 500 480 450 (fun s => s.withOp { s.op with slowCnt := 2 }),
      dsmAt .movingStop 402 500 402 400,
      dsmAt .rescue 720 2000 720 780 (fun s => s.withOp { s.op with rescueT := 22 }),
      dsmAt .rescue 1240 2000 1240 1220 (fun s => s.withOp { s.op with rescueT := 3 }),
      dsmAt .rescue 1240 2000 1240 1220 (fun s => s.withOp { s.op with rescueT := 3, faultDir := .down })]
    = [some (0x21, 3000, 0xA0, 3000), some (0x21, 600, 0xA0, 600),
      some (0x21, 3140, 0xA0, 3000), some (0x22, 3141, 0xA1, 3000),
      some (0x23, 4000, 0xA2, 2990), some (0x24, 2000, 0xA3, 3000),
      some (0x21, 3000, 0xA0, 3000),
      some (0x25, 500, 0xA4, 350), some (0x23, 500, 0xA2, 350), some (0x25, 500, 0xA4, 600),
      some (0x25, 1000, 0xA4, 1140), some (0x24, 1000, 0xA3, 1150),
      some (0x26, 500, 0xA5, 450),
      some (0x21, 402, 0xA0, 402),
      some (0x21, 720, 0xA0, 720),
      some (0x29, 2000, 0xA3, 1240),
      some (0x29, 2000, 0xA2, 1220)] := by decide

/-! ## Host commands -/

/-- F7 and F22: INIT. -/
theorem test_init :
    after (.init true) cold = some (ready.withResp (some 0))
    ∧ see (fun t => (t.desk.mode.code, t.t.busState, t.desk.upper)) (.init false) (oper .normal 14)
      = some (0x00, .idle, 0) := by decide

/-- RESET during operation (R320). -/
theorem test_reset : after .reset (oper .normal 14) = some cold := by decide

/-- F1, F7, DS13. -/
theorem test_startDiscovery :
    answerOf .startDiscovery cold = some 0x03000000 ∧ answerOf .startDiscovery ready = some 0x00000000
    ∧ answerOf .startDiscovery (disc .begin 0) = some 0x02000000 := by decide

/-- F8 and F13. -/
theorem test_desk_queries :
    answerOf .getBusy (disc .begin 0) = some 1 ∧ answerOf .getMode (disc .begin 0) = some 0x10
    ∧ answerOf .getMode (oper .normal 13) = some 0x21 ∧ answerOf .getPosition (oper .normal 13) = some 3000
    ∧ answerOf .getLowerLimit (oper .normal 13) = some 600
    ∧ answerOf .getUpperLimit (oper .normal 13) = some 6300 := by decide

/-- Drift: 1240 and 1220 differ by 20; 0 and 65535 by 65535 (95_test_vectors.md 2.7). -/
theorem test_getDrift :
    answerOf .getDrift ((oper .normal 13).withMotor
      #v[⟨1, 0, 1240, 0, 0, 0, 0⟩, ⟨2, 0, 1220, 0, 0, 0, 0⟩]) = some 20
    ∧ answerOf .getDrift ((oper .normal 13).withMotor
      #v[⟨1, 0, 0, 0, 0, 0, 0⟩, ⟨2, 0, 65535, 0, 0, 0, 0⟩]) = some 65535 := by decide

/-- F15 and F16: unit 1 and unit 255. -/
theorem test_motor_queries :
    [Instr.getMotorState 1, .getMotorPosition 1, .getMotorLowerLimit 1, .getMotorUpperLimit 1,
      .getMotorAddress 1, .getMotorCapability 1].map (answerOf · (oper .normal 13))
      = [some 0, some 3000, some 600, some 6300, some 2, some 0x22]
    ∧ [Instr.getMotorState 255, .getMotorPosition 255, .getMotorLowerLimit 255, .getMotorUpperLimit 255,
      .getMotorAddress 255, .getMotorCapability 255].map (answerOf · (oper .normal 13))
      = [some 0xFF, some 0xFFFF, some 0xFFFF, some 0xFFFF, some 0xFF, some 0xFF] := by decide

/-- F9 and F10. -/
theorem test_requestPosition :
    [6301, 6300, 599, 600, 3140, 3141, 2860, 2859, 3000].map
        (fun t => answerOf (.requestPosition t) (oper .normal 13))
      = [some 0x05000000, some 0, some 0x06000000, some 0, some 0x07000000, some 0, some 0x07000000,
        some 0, some 0x07000000] := by decide

/-- F2, F18, F19. -/
theorem test_requestPosition_guards :
    answerOf (.requestPosition 500) cold = some 0x03000000
    ∧ answerOf (.requestPosition 4000) (oper .normal 10) = some 0x02000000
    ∧ answerOf (.requestPosition 1500) (oper .rescue 13) = some 0x01000000 := by decide

/-- F12 and F20. -/
theorem test_requestCalibration :
    see (fun t => (t.resp, t.desk.calibReq)) .requestCalibration (oper .normal 13) = some (some 0, true)
    ∧ answerOf .requestCalibration (oper .calibrating 13) = some 0x01000000 := by decide

/-- F3 and F21. -/
theorem test_requestHalt :
    answerOf .requestHalt cold = some 0
    ∧ see (·.desk.target) .requestHalt
      ((oper .movingUp 5).withDesk { (oper .movingUp 5).desk with target := 4000 }) = some 3000 := by decide

/-- E9: a reserved opcode changes nothing but the response. -/
theorem test_reserved_opcode :
    after (.reservedOpcode80 0x7F) ready = some (ready.withResp (some 0x04000000)) := by decide

/-- E17: a reserved event, and the step after it. -/
theorem test_reserved_event :
    after .reservedEventE ready = some (ready.withRefused (some .reservedEvent))
    ∧ stopOf (ready.withRefused (some .reservedEvent)) = some (.inr .reservedEvent) := by decide

/-! ## States that meet the hypotheses of a statement -/

/-- The motor of `a` answers `p`, its checksum right. -/
def answered (a : LinAddr) (p : List Byte) (s : State) : State :=
  heard a (p ++ [checksum (pid a) p]) s

/-- A node answers `p` on the diagnostic address. -/
def diagnosed (p : List Byte) (s : State) : State := heard 0x3D (p ++ [checksum 0 p]) s

/-- With a scan candidate, a count of found nodes, and a retry count. -/
def counting (cand : BitVec 4) (found retry : BitVec 2) (s : State) : State :=
  s.withD { s.d with cand := cand, found := found, retry := retry }

theorem tc_legal : tc.Legal := ⟨by decide, by decide⟩

theorem witness_StepRunsTheDecodedInput :
    (ready.withInput [.evt 0x1000]).Clean ∧ (ready.withInput [.evt 0x1000]).input = .evt 0x1000 :: []
    ∧ decode (.evt 0x1000) = .ok .tick := ⟨⟨rfl, rfl⟩, rfl, by decide⟩

theorem witness_StepWithNothingToRun :
    (ready.withFaults [.rxOverflow]).faults = .rxOverflow :: []
    ∧ ((ready.withRefused (some .reservedEvent)).faults = []
      ∧ (ready.withRefused (some .reservedEvent)).refused = some .reservedEvent)
    ∧ (ready.Clean ∧ ready.input = [])
    ∧ ((ready.withInput [.uop 0 0 []]).Clean ∧ (ready.withInput [.uop 0 0 []]).input = .uop 0 0 [] :: []
      ∧ (0 : BitVec 8) ≠ 1 ∧ (0 : BitVec 8) ≠ 2 ∧ (0 : BitVec 8) ≠ 3)
    ∧ ((ready.withInput [.uop 4 0 []]).Clean ∧ (ready.withInput [.uop 4 0 []]).input = .uop 4 0 [] :: []
      ∧ (4 : BitVec 8) ≠ 1 ∧ (4 : BitVec 8) ≠ 2 ∧ (4 : BitVec 8) ≠ 3)
    ∧ ready.t.txInflight = false :=
  ⟨rfl, ⟨rfl, rfl⟩, ⟨⟨rfl, rfl⟩, rfl⟩, ⟨⟨rfl, rfl⟩, rfl, by decide⟩, ⟨⟨rfl, rfl⟩, rfl, by decide⟩, rfl⟩

theorem witness_PowerOnChecksTheConfiguration :
    configWellFormed tc = true ∧ configWellFormed { tc with hbPayload := [] } = false := by decide

/-- A byte is received, with TransportOk before. -/
theorem witness_StepKeepsTransportOk :
    ((heard 0x3D [1, 2, 3, 4, 5, 6, 7, 8] ready).withInput [.evt 0x3009]).cfg.tableValues = true
    ∧ TransportOk ((heard 0x3D [1, 2, 3, 4, 5, 6, 7, 8] ready).withInput [.evt 0x3009]).t
    ∧ ∃ t, step ((heard 0x3D [1, 2, 3, 4, 5, 6, 7, 8] ready).withInput [.evt 0x3009]) = .next t
      ∧ t.t.rxCount = 9 :=
  ⟨by decide, ⟨by decide, by decide, by decide, by decide, by decide, by decide, by decide⟩, _, rfl, by decide⟩

/-- A tick of discovery, with SequencerOk before. -/
theorem witness_StepKeepsSequencerOk :
    ((disc .ann1 0).withInput [.evt 0x1000]).cfg.Legal
    ∧ SequencerOk ((disc .ann1 0).withInput [.evt 0x1000])
    ∧ ∃ t, step ((disc .ann1 0).withInput [.evt 0x1000]) = .next t ∧ t.d.discT = 1 :=
  ⟨tc_legal,
   { cand := by decide
     candInScan := fun S h hu => by cases h; cases hu
     candAfter := fun S h hu => by cases h; cases hu
     before := fun S h hu => by decide
     found := by decide
     foundInRead := fun S h hu => by decide
     validCount := fun S h hu => by decide
     fresh := fun S h hu => by decide
     discT := by decide
     retry := fun h => absurd h (by decide)
     slot := by decide
     rescueT := by decide
     slowCnt := fun h => by decide },
   _, rfl, by decide⟩

/-- The tick of slot 11, with BusyOk before. -/
theorem witness_StepKeepsBusyOk :
    BusyOk ((oper .normal 11).withInput [.evt 0x1000])
    ∧ ∃ t, step ((oper .normal 11).withInput [.evt 0x1000]) = .next t ∧ t.desk.busy = false :=
  ⟨{ idle := by decide
     startup := fun S h => by cases h
     busySlots := fun m h => by decide
     freeSlots := fun m h => by decide
     busEnabled := fun h => by decide },
   _, rfl, by decide⟩

theorem witness_StepKeepsLimitsOk :
    LimitsOk ((oper .normal 11).withInput [.evt 0x1000])
    ∧ ∃ t, step ((oper .normal 11).withInput [.evt 0x1000]) = .next t ∧ t.op.slot = 12 :=
  ⟨⟨fun m h => by decide, fun m h => by decide, fun m h => by decide⟩, _, rfl, by decide⟩

/-- A symbol is emitted; a fault is added. -/
theorem witness_HistoryOnlyGrows :
    (∃ t, exec (.tRead 0x3D) ready = .next t ∧ t.wire = [.brk])
    ∧ ∃ t, exec (.rxByte 0) (heard 0x3D [1, 2, 3, 4, 5, 6, 7, 8, 9] ready) = .next t
      ∧ t.faults = [.rxOverflow] := ⟨⟨_, rfl, by decide⟩, ⟨_, rfl, by decide⟩⟩

theorem witness_ModeWriters :
    ∃ t, exec .startDiscovery ready = .next t ∧ t.desk.mode ≠ ready.desk.mode := ⟨_, rfl, by decide⟩

/-- The last tick of P1, with node 0 found. -/
def atPost2 : State :=
  (counting 8 1 0 (disc .post2 4)).withNode
    (ready.node.set 0 ⟨true, 0x01, 0x21, 0x19, 0x64, 0x01, 0xF4⟩)

theorem witness_OperationEnteredOnlyFromPost2 :
    (∃ t, exec .tick atPost2 = .next t ∧ t.desk.mode = .operation .begin)
    ∧ ∀ m', atPost2.desk.mode ≠ .operation m' := ⟨⟨_, rfl, by decide⟩, fun m' h => by cases h⟩

/-- At slot 2 while moving up, at slot 3 while moving slow. -/
theorem witness_RescueEntry :
    (configWellFormed (oper .movingUp 2).cfg = true ∧ (oper .movingUp 2).desk.mode ≠ .operation .rescue
      ∧ ∃ t, exec .tick (answered 1 [0xD8, 0x04, 0xB1] (oper .movingUp 2)) = .next t
        ∧ t.desk.mode = .operation .rescue)
    ∧ (configWellFormed (oper .movingSlow 3).cfg = true ∧ (oper .movingSlow 3).desk.mode ≠ .operation .rescue
      ∧ ∃ t, exec .tick (answered 2 [0xD8, 0x04, 0xB1] (oper .movingSlow 3)) = .next t
        ∧ t.desk.mode = .operation .rescue) :=
  ⟨⟨by decide, by decide, _, rfl, by decide⟩, ⟨by decide, by decide, _, rfl, by decide⟩⟩

/-- The four ways out. -/
theorem witness_RescueExit :
    ((oper .rescue 13).cfg.tableValues = true ∧ (oper .rescue 13).desk.mode = .operation .rescue)
    ∧ (∃ t, exec (.init true) (oper .rescue 13) = .next t ∧ t.desk.mode ≠ .operation .rescue)
    ∧ (∃ t, exec .reset (oper .rescue 13) = .next t ∧ t.desk.mode ≠ .operation .rescue)
    ∧ (∃ t, exec .startDiscovery (oper .rescue 13) = .next t ∧ t.desk.mode ≠ .operation .rescue)
    ∧ (∃ t, exec .tick ((oper .rescue 9).withOp { (oper .rescue 9).op with rescueT := 22 }) = .next t
      ∧ t.desk.mode ≠ .operation .rescue) :=
  ⟨⟨by decide, by decide⟩, ⟨_, rfl, by decide⟩, ⟨_, rfl, by decide⟩, ⟨_, rfl, by decide⟩, ⟨_, rfl, by decide⟩⟩

theorem witness_CommandFrame :
    isCommand .startDiscovery ∧ (∀ e, Instr.startDiscovery ≠ .init e)
    ∧ ∃ t, exec .startDiscovery ready = .next t ∧ t.desk.busy = true :=
  ⟨rfl, (fun e h => by cases h), _, rfl, by decide⟩

theorem witness_TransportFrame :
    (∃ t, exec .txDone pumping = .next t ∧ t.t.txIdx = 4)
    ∧ (∃ t, exec (.rxByte 7) (heard 0x3D [] ready) = .next t ∧ t.t.rxCount = 1)
    ∧ (∃ t, exec (.tWrite 3 [0x5A]) ready = .next t ∧ t.t.txLen = 4)
    ∧ (∃ t, exec (.tRead 1) ready = .next t ∧ t.t.txLen = 2)
    ∧ ∃ t, exec .tGetRx (heard 0x3D [] ready) = .next t ∧ t.t.busState = .ready :=
  ⟨⟨_, rfl, by decide⟩, ⟨_, rfl, by decide⟩, ⟨_, rfl, by decide⟩, ⟨_, rfl, by decide⟩, ⟨_, rfl, by decide⟩⟩

/-- A tick in each class. -/
theorem witness_TickFrame :
    ((∃ t, exec .tick ready = .next t) ∧ ready.desk.mode = .idle)
    ∧ ((∃ t, exec .tick atPost2 = .next t ∧ t.desk.lower = 500) ∧ ∃ S, atPost2.desk.mode = .startup S)
    ∧ ((∃ t, exec .tick (oper .normal 9) = .next t ∧ t.op.cmdPos = 3000)
      ∧ ∃ m, (oper .normal 9).desk.mode = .operation m) :=
  ⟨⟨⟨_, rfl⟩, rfl⟩, ⟨⟨_, rfl, by decide⟩, _, rfl⟩, ⟨⟨_, rfl, by decide⟩, _, rfl⟩⟩

theorem witness_EveryCommandResponds :
    isCommand .getMode ∧ ¬ isCommand .tick ∧ ∃ t, exec .tick (oper .normal 9) = .next t ∧ t.op.cmdPos = 3000 :=
  ⟨rfl, (fun h => by cases h), _, rfl, by decide⟩

theorem witness_RefusedRequestsChangeNothing :
    isCommand (.requestPosition 6301)
    ∧ (∃ t, exec (.requestPosition 6301) (oper .normal 13) = .next t ∧ t.resp = some 0x05000000)
    ∧ (0x05000000 : RespWord).extractLsb' 24 8 ≠ 0 := ⟨rfl, ⟨_, rfl, by decide⟩, by decide⟩

/-- Units 0 and 1, 2 and 255. -/
theorem witness_MotorQueryResults :
    ready.cfg.tableValues = true ∧ (0 : BitVec 8).toNat = 0 ∧ (1 : BitVec 8).toNat = 1
    ∧ 2 ≤ (2 : BitVec 8).toNat ∧ 2 ≤ (255 : BitVec 8).toNat := by decide

theorem witness_ReservedOpcodesAnswerInvalidData :
    (0x00123456 : CmdWord).extractLsb' 24 8 = 0x00 ∧ (0x0F000000 : CmdWord).extractLsb' 24 8 = 0x0F
    ∧ 0x13 ≤ ((0x13000000 : CmdWord).extractLsb' 24 8).toNat
    ∧ 0x13 ≤ ((0xFFFFFFFF : CmdWord).extractLsb' 24 8).toNat := by decide

theorem witness_ReservedEventsAreRefused :
    (0x0FFF : EvtWord).extractLsb' 12 4 = 0x0
    ∧ 0x4 ≤ ((0x4000 : EvtWord).extractLsb' 12 4).toNat ∧ ((0xEFFF : EvtWord).extractLsb' 12 4).toNat ≤ 0xE := by
  decide

/-- Nine bytes, none, one, eight; nothing in flight and a symbol in flight. -/
theorem witness_TransportWriteResult :
    ready.cfg.tableValues = true ∧ 8 < (List.replicate 9 (0 : Byte)).length
    ∧ (List.replicate 8 (0 : Byte)).length ≤ 8 ∧ [(0x5A : Byte)] ≠ [] ∧ cold.t.busState ≠ .ready
    ∧ ready.t.busState = .ready ∧ ready.t.txInflight = false
    ∧ (ready.withT { ready.t with txInflight := true }).t.busState = .ready
    ∧ (ready.withT { ready.t with txInflight := true }).t.txInflight = true
    ∧ .txOverrun ∉ (ready.withT { ready.t with txInflight := true }).faults := by decide

theorem witness_TransportReadResult :
    ready.cfg.tableValues = true ∧ pumping.t.busState ≠ .ready
    ∧ ready.t.busState = .ready ∧ ready.t.txInflight = false
    ∧ (ready.withT { ready.t with txInflight := true }).t.busState = .ready
    ∧ (ready.withT { ready.t with txInflight := true }).t.txInflight = true
    ∧ .txOverrun ∉ (ready.withT { ready.t with txInflight := true }).faults := by decide

/-- Idle; 0, 1, 2 and 9 bytes; a right and a wrong checksum. -/
theorem witness_TransportGetRxResult :
    cold.cfg.tableValues = true ∧ cold.t.rxCount.toNat ≤ 9 ∧ cold.t.busState = .idle
    ∧ (heard 0x3D [] ready).t.rxCount.toNat < 2 ∧ (heard 0x3D [1] ready).t.rxCount.toNat < 2
    ∧ (heard 0x3D [1] ready).t.busState ≠ .idle
    ∧ (heard 0x3D [1, 0xFE] ready).t.rxCount.toNat = 1 + 1
    ∧ (heard 0x3D [1, 0xFE] ready).t.rxBuf[1]
      = checksum 0 ((heard 0x3D [1, 0xFE] ready).t.rxBuf.toList.take 1)
    ∧ (heard 0x3D [1, 2, 3, 4, 5, 6, 7, 8, 0xDB] ready).t.rxCount.toNat = 8 + 1
    ∧ (heard 0x3D [1, 2, 3, 4, 5, 6, 7, 8, 0xDA] ready).t.rxBuf[8]
      ≠ checksum 0 ((heard 0x3D [1, 2, 3, 4, 5, 6, 7, 8, 0xDA] ready).t.rxBuf.toList.take 8) := by decide

/-- `pumping` with another bus state, index, length and receiver. -/
def pumpAt (b : BusState) (idx len : BitVec 4) (rx : Bool) : State :=
  pumping.withT { pumping.t with busState := b, txIdx := idx, txLen := len, rxEnable := rx }

/-- The first and the last byte of a write, the last of a header; the ends of both; the
quiet states. -/
theorem witness_TxDoneResult :
    (∀ b i l r, (pumpAt b i l r).t.txInflight = true)
    ∧ ((pumpAt .sending 0 11 false).t.txIdx.toNat = 0 ∧ 0 < (pumpAt .sending 0 11 false).t.txLen.toNat)
    ∧ ((pumpAt .sending 10 11 false).t.txIdx.toNat = 10 ∧ 10 < (pumpAt .sending 10 11 false).t.txLen.toNat)
    ∧ ((pumpAt .receiving 1 2 false).t.txIdx.toNat = 1 ∧ 1 < (pumpAt .receiving 1 2 false).t.txLen.toNat)
    ∧ (pumpAt .sending 11 11 false).t.txLen.toNat ≤ (pumpAt .sending 11 11 false).t.txIdx.toNat
    ∧ ((pumpAt .receiving 2 2 false).t.txLen.toNat ≤ (pumpAt .receiving 2 2 false).t.txIdx.toNat
      ∧ (pumpAt .receiving 2 2 false).t.rxEnable = false)
    ∧ (pumpAt .receiving 2 2 true).t.rxEnable = true ∧ (pumpAt .idle 0 0 false).t.busState = .idle
    ∧ (pumpAt .ready 0 0 false).t.busState = .ready :=
  ⟨fun _ _ _ _ => rfl, by decide⟩

/-- Dropped; the echo; the tenth byte; the first and the ninth. -/
theorem witness_RxByteResult :
    ready.cfg.tableValues = true ∧ ready.t.busState ≠ .receiving
    ∧ (heard 0x3D [] ready).t.busState = .receiving ∧ (heard 0x3D [] ready).t.rxEnable = true
    ∧ (heard 0x3D [] ready).t.echoPending = false ∧ (0x7D : Byte) = (heard 0x3D [] ready).t.activePid
    ∧ { (heard 0x3D [] ready).t with echoPending := true }.echoPending = true
    ∧ (heard 0x3D [1, 2, 3, 4, 5, 6, 7, 8, 9] ready).t.rxCount = 9
    ∧ .rxOverflow ∉ (heard 0x3D [1, 2, 3, 4, 5, 6, 7, 8, 9] ready).faults
    ∧ (heard 0x3D [] ready).t.rxCount.toNat = 0
    ∧ (heard 0x3D [1, 2, 3, 4, 5, 6, 7, 8] ready).t.rxCount.toNat = 8 := by decide

/-- One byte and eight. -/
theorem witness_WriteFrameReachesTheWire :
    (ready.cfg.tableValues = true ∧ ready.Clean ∧ ready.t.busState = .ready ∧ ready.t.txInflight = false)
    ∧ ([(0x5A : Byte)] ≠ [] ∧ [(0x5A : Byte)].length ≤ 8)
    ∧ ((List.replicate 8 (1 : Byte)) ≠ [] ∧ (List.replicate 8 (1 : Byte)).length ≤ 8)
    ∧ (ready.withInput (.uop 0x01 3 [0x5A] :: List.replicate 5 (.evt 0x2000))).input
      = .uop 0x01 3 [0x5A] :: List.replicate ([(0x5A : Byte)].length + 4) (.evt 0x2000) :=
  ⟨⟨by decide, ⟨rfl, rfl⟩, by decide⟩, by decide, by decide, rfl⟩

/-- One byte and eight. -/
theorem witness_ResponseRoundTrip :
    (ready.cfg.tableValues = true ∧ ready.Clean ∧ ready.t.busState = .ready ∧ ready.t.txInflight = false
      ∧ ready.t.rxCount = 0)
    ∧ ([(0x01 : Byte)] ≠ [] ∧ [(0x01 : Byte)].length ≤ 8)
    ∧ ((List.replicate 8 (1 : Byte)) ≠ [] ∧ (List.replicate 8 (1 : Byte)).length ≤ 8)
    ∧ (ready.withInput [.uop 0x02 0x3D [], .evt 0x2000, .evt 0x2000, .evt 0x2000, .evt 0x307D, .evt 0x3001,
        .evt 0x30FE, .uop 0x03 0 []]).input
      = .uop 0x02 0x3D [] :: .evt 0x2000 :: .evt 0x2000 :: .evt 0x2000
        :: (((pid 0x3D :: [0x01] ++ [checksum 0 [0x01]]).map fun b => encode (.rxByte b)) ++ [.uop 0x03 0 []]) :=
  ⟨⟨by decide, ⟨rfl, rfl⟩, by decide⟩, by decide, by decide, by decide⟩

/-- The first candidate and the last. -/
theorem witness_DiscoveryRequests :
    tc.tableValues = true ∧ (counting 0 0 0 ready).d.cand.toNat = 0 ∧ (counting 7 1 0 ready).d.cand.toNat = 7
    ∧ (counting 0 0 0 ready).d.found = 0 ∧ (counting 7 1 0 ready).d.found = 1
    ∧ (readRow .readStatus).isSome = true ∧ DMode.scan ≠ .begin := by decide

theorem witness_DiscoveryBegins :
    (disc .begin 0).cfg.tableValues = true ∧ (disc .begin 0).desk.mode = .startup .begin
    ∧ (disc .begin 1).d.discT.toNat < 2 ∧ 2 ≤ (disc .begin 2).d.discT.toNat := by decide

/-- The clauses' ticks; a clean request, and one that ends the step in TxOverrun. -/
theorem witness_DiscoverySchedule :
    ((disc .ann1 2).cfg.tableValues = true ∧ (disc .ann1 2).Clean ∧ (disc .ann1 2).desk.mode = .startup .ann1
      ∧ DMode.ann1 ≠ .begin)
    ∧ ((disc .ann1 1).d.discT.toNat < 2 ∧ (disc .ann1 2).d.discT = 2 ∧ (disc .ann1 3).d.discT = 3)
    ∧ (∃ u, exec (.tWrite 0x3C (request tc (disc .ann1 2).d .ann1)) (disc .ann1 2) = .next u ∧ u.Clean)
    ∧ (∃ u, exec (.tRead 0x3D) ((disc .ann1 3).withT { (disc .ann1 3).t with txInflight := true }) = .next u
      ∧ ¬ u.Clean) :=
  ⟨⟨by decide, ⟨rfl, rfl⟩, by decide⟩, by decide, ⟨_, rfl, ⟨rfl, rfl⟩⟩,
   ⟨_, rfl, fun h => absurd h.faults (by decide)⟩⟩

theorem witness_FixedFramesIgnoreTheResponse :
    AtEvaluation .post1 (disc .post1 4) ∧ fixedNext .post1 = some .post2
    ∧ AtEvaluation .ann1 (diagnosed [1, 2] (disc .ann1 4)) ∧ fixedNext .ann1 = some .ann2 :=
  ⟨⟨by decide, rfl, rfl⟩, rfl, ⟨by decide, rfl, rfl⟩, rfl⟩

/-- A response with one node found, one with two; none at candidates 0, 6 and 7. -/
theorem witness_ScanResult :
    (AtEvaluation .scan (diagnosed [0x10] (counting 1 1 0 (disc .scan 4)))
      ∧ payloadOf (diagnosed [0x10] (counting 1 1 0 (disc .scan 4))) = some [0x10])
    ∧ (AtEvaluation .scan (diagnosed [0x10] (counting 2 2 0 (disc .scan 4)))
      ∧ payloadOf (diagnosed [0x10] (counting 2 2 0 (disc .scan 4))) = some [0x10]
      ∧ .extraNode ∉ (diagnosed [0x10] (counting 2 2 0 (disc .scan 4))).faults)
    ∧ (AtEvaluation .scan (counting 6 0 0 (disc .scan 4))
      ∧ payloadOf (counting 6 0 0 (disc .scan 4)) = some [])
    ∧ (AtEvaluation .scan (counting 7 0 0 (disc .scan 4))
      ∧ payloadOf (counting 7 0 0 (disc .scan 4)) = some []) :=
  ⟨⟨⟨by decide, rfl, rfl⟩, by decide⟩, ⟨⟨by decide, rfl, rfl⟩, by decide⟩,
   ⟨⟨by decide, rfl, rfl⟩, by decide⟩, ⟨⟨by decide, rfl, rfl⟩, by decide⟩⟩

/-- DS5 and DS6: a valid answer; a wrong echo; a short one; at retry counts 1 and 2, candidates 0 and 7. -/
theorem witness_RegisterReadResult :
    (AtEvaluation .readStatus (diagnosed [0x10, 0xC1, 0xD0, 0x21] (disc .readStatus 4))
      ∧ readRow .readStatus = some (.readUpHi, (·.regStatus), fun v nd => { nd with cap := v })
      ∧ (disc .readStatus 4).d.cand.toNat = 0
      ∧ payloadOf (diagnosed [0x10, 0xC1, 0xD0, 0x21] (disc .readStatus 4)) = some [0x10, 0xC1, 0xD0, 0x21])
    ∧ (AtEvaluation .readLoLo (diagnosed [0x17, 0xC1, 0xD0, 0x21] (counting 7 0 1 (disc .readLoLo 4)))
      ∧ (counting 7 0 1 (disc .readLoLo 4)).d.cand.toNat = 7
      ∧ (counting 7 0 1 (disc .readLoLo 4)).d.retry.toNat < 2
      ∧ payloadOf (diagnosed [0x17, 0xC1, 0xD0, 0x21] (counting 7 0 1 (disc .readLoLo 4)))
        = some [0x17, 0xC1, 0xD0, 0x21])
    ∧ (AtEvaluation .readUpHi (diagnosed [0x10, 0xC1, 0xD1] (counting 0 0 2 (disc .readUpHi 4)))
      ∧ (counting 0 0 2 (disc .readUpHi 4)).d.retry = 2
      ∧ payloadOf (diagnosed [0x10, 0xC1, 0xD1] (counting 0 0 2 (disc .readUpHi 4)))
        = some [0x10, 0xC1, 0xD1]) :=
  ⟨⟨⟨by decide, rfl, rfl⟩, rfl, by decide⟩, ⟨⟨by decide, rfl, rfl⟩, by decide⟩,
   ⟨⟨by decide, rfl, rfl⟩, by decide⟩⟩

/-- A valid echo for the first node at candidate 0 and the second at 7; a missing one at retry counts 1, 2. -/
theorem witness_WriteIdentifierResult :
    (AtEvaluation .writeId (diagnosed [0x10, 0xC2, 0xD5, 0x77] (disc .writeId 4))
      ∧ (disc .writeId 4).d.cand.toNat = 0 ∧ (disc .writeId 4).d.found.toNat ≤ 1
      ∧ payloadOf (diagnosed [0x10, 0xC2, 0xD5, 0x77] (disc .writeId 4)) = some [0x10, 0xC2, 0xD5, 0x77])
    ∧ (AtEvaluation .writeId (diagnosed [0x17, 0xC2, 0xD5, 0x02] (counting 7 1 1 (disc .writeId 4)))
      ∧ (counting 7 1 1 (disc .writeId 4)).d.cand.toNat = 7 ∧ (counting 7 1 1 (disc .writeId 4)).d.found.toNat ≤ 1
      ∧ payloadOf (diagnosed [0x17, 0xC2, 0xD5, 0x02] (counting 7 1 1 (disc .writeId 4)))
        = some [0x17, 0xC2, 0xD5, 0x02])
    ∧ (AtEvaluation .writeId (counting 0 0 2 (disc .writeId 4))
      ∧ payloadOf (counting 0 0 2 (disc .writeId 4)) = some [] ∧ (counting 0 0 2 (disc .writeId 4)).d.retry = 2)
    ∧ (AtEvaluation .writeId (counting 0 0 1 (disc .writeId 4))
      ∧ payloadOf (counting 0 0 1 (disc .writeId 4)) = some []
      ∧ (counting 0 0 1 (disc .writeId 4)).d.retry.toNat < 2) :=
  ⟨⟨⟨by decide, rfl, rfl⟩, by decide⟩, ⟨⟨by decide, rfl, rfl⟩, by decide⟩,
   ⟨⟨by decide, rfl, rfl⟩, by decide⟩, ⟨⟨by decide, rfl, rfl⟩, by decide⟩⟩

/-- No node, one node, two nodes. -/
theorem witness_DiscoveryCompletes :
    (AtEvaluation .post2 (disc .post2 4) ∧ (disc .post2 4).d.found = 0)
    ∧ (AtEvaluation .post2 atPost2 ∧ atPost2.d.found ≠ 0
      ∧ atPost2.node.toList.filter (·.valid) = ⟨true, 0x01, 0x21, 0x19, 0x64, 0x01, 0xF4⟩ :: [])
    ∧ (AtEvaluation .post2 ((counting 8 2 0 atPost2).withNode
        (atPost2.node.set 3 ⟨true, 0x02, 0x22, 0x18, 0x9C, 0x02, 0x58⟩))
      ∧ (atPost2.node.set 3 ⟨true, 0x02, 0x22, 0x18, 0x9C, 0x02, 0x58⟩).toList.filter (·.valid)
        = ⟨true, 0x01, 0x21, 0x19, 0x64, 0x01, 0xF4⟩ :: ⟨true, 0x02, 0x22, 0x18, 0x9C, 0x02, 0x58⟩ :: []) :=
  ⟨⟨⟨by decide, rfl, rfl⟩, by decide⟩, ⟨⟨by decide, rfl, rfl⟩, by decide⟩,
   ⟨⟨by decide, rfl, rfl⟩, by decide⟩⟩

/-- Slots 4 and 11, and both ends of both quiet ranges. -/
theorem witness_QuietSlots :
    AtSlot 4 .normal (oper .normal 4) ∧ AtSlot 11 .normal (oper .normal 11)
    ∧ AtSlot 5 .normal (oper .normal 5) ∧ AtSlot 8 .normal (oper .normal 8)
    ∧ AtSlot 12 .rescue (oper .rescue 12) ∧ AtSlot 18 .rescue (oper .rescue 18) :=
  ⟨⟨by decide, rfl, rfl⟩, ⟨by decide, rfl, rfl⟩, ⟨by decide, rfl, rfl⟩, ⟨by decide, rfl, rfl⟩,
   ⟨by decide, rfl, rfl⟩, ⟨by decide, rfl, rfl⟩⟩

/-- Each sending slot with a clean end, and slot 1 with a symbol in flight. -/
theorem witness_SendingSlots :
    (AtSlot 0 .normal (oper .normal 0) ∧ (oper .normal 0).Clean
      ∧ ∃ u, exec (.tWrite tc.addrHeartbeat tc.hbPayload) (oper .normal 0) = .next u ∧ u.Clean)
    ∧ (AtSlot 1 .normal (oper .normal 1) ∧ (oper .normal 1).Clean
      ∧ ∃ u, exec (.tRead 1) (oper .normal 1) = .next u ∧ u.Clean)
    ∧ (AtSlot 10 .normal (oper .normal 10) ∧ (oper .normal 10).Clean
      ∧ ∃ u, exec (.tWrite tc.addrBroadcast [0, 0, 0]) (oper .normal 10) = .next u ∧ u.Clean)
    ∧ (∃ u, exec (.tRead 1) ((oper .normal 1).withT { (oper .normal 1).t with txInflight := true }) = .next u
      ∧ ¬ u.Clean) :=
  ⟨⟨⟨by decide, rfl, rfl⟩, ⟨rfl, rfl⟩, _, rfl, ⟨rfl, rfl⟩⟩, ⟨⟨by decide, rfl, rfl⟩, ⟨rfl, rfl⟩, _, rfl, ⟨rfl, rfl⟩⟩,
   ⟨⟨by decide, rfl, rfl⟩, ⟨rfl, rfl⟩, _, rfl, ⟨rfl, rfl⟩⟩, ⟨_, rfl, fun h => absurd h.faults (by decide)⟩⟩

/-- Blocked while moving, blocked in O.Normal, three bytes unblocked, two bytes. -/
theorem witness_ReadingAtSlot3 :
    (AtSlot 3 .movingUp (answered 2 [1, 2, 0xB1] (oper .movingUp 3))
      ∧ (oper .movingUp 3).desk.mode.moving = true ∧ (0xB1 : Byte) ∈ tc.blockedStates
      ∧ payloadOf (answered 2 [1, 2, 0xB1] (oper .movingUp 3)) = some [1, 2, 0xB1])
    ∧ (AtSlot 3 .normal (answered 2 [1, 2, 0xB1] (oper .normal 3)) ∧ (oper .normal 3).desk.mode.moving = false)
    ∧ (AtSlot 3 .movingDown (answered 2 [1, 2, 0] (oper .movingDown 3)) ∧ (0 : Byte) ∉ tc.blockedStates
      ∧ payloadOf (answered 2 [1, 2, 0] (oper .movingDown 3)) = some [1, 2, 0])
    ∧ (AtSlot 3 .normal (answered 2 [1, 2] (oper .normal 3))
      ∧ payloadOf (answered 2 [1, 2] (oper .normal 3)) = some [1, 2]) :=
  ⟨⟨⟨by decide, rfl, rfl⟩, by decide⟩, ⟨⟨by decide, rfl, rfl⟩, by decide⟩, ⟨⟨by decide, rfl, rfl⟩, by decide⟩,
   ⟨⟨by decide, rfl, rfl⟩, by decide⟩⟩

theorem witness_ReadingAtSlot2 :
    (AtSlot 2 .movingUp (answered 1 [1, 2, 0xB1] (oper .movingUp 2))
      ∧ (answered 1 [1, 2, 0xB1] (oper .movingUp 2)).Clean
      ∧ (oper .movingUp 2).desk.mode.moving = true ∧ (0xB1 : Byte) ∈ tc.blockedStates
      ∧ payloadOf (answered 1 [1, 2, 0xB1] (oper .movingUp 2)) = some [1, 2, 0xB1])
    ∧ (AtSlot 2 .normal (answered 1 [1, 2, 0xB1] (oper .normal 2)) ∧ (oper .normal 2).desk.mode.moving = false)
    ∧ (AtSlot 2 .movingDown (answered 1 [1, 2, 0] (oper .movingDown 2)) ∧ (0 : Byte) ∉ tc.blockedStates)
    ∧ (AtSlot 2 .normal (answered 1 [1, 2] (oper .normal 2))
      ∧ payloadOf (answered 1 [1, 2] (oper .normal 2)) = some [1, 2]) :=
  ⟨⟨⟨by decide, rfl, rfl⟩, ⟨rfl, rfl⟩, by decide⟩, ⟨⟨by decide, rfl, rfl⟩, by decide⟩,
   ⟨⟨by decide, rfl, rfl⟩, by decide⟩, ⟨⟨by decide, rfl, rfl⟩, by decide⟩⟩

/-- OP29 to OP32's outage counts. -/
theorem witness_SynchronisedPosition :
    [(0, 0), (1, 0), (0, 3), (2, 2)].map (fun (o : Byte × Byte) =>
      let s := (oper .movingUp 9).withMotor #v[⟨1, 0, 100, 0, o.1, 0, 0⟩, ⟨2, 0, 90, 0, o.2, 0, 0⟩]
      let s := s.withOp { s.op with cmdPos := 77 }
      (posSel .up s, posSel .down s)) = [(90, 100), (90, 90), (100, 100), (77, 77)] := by decide

/-- Inside the limits, at each of them, and there with the mode TC configures and with O.MovingStop. -/
theorem witness_DeskBeginResult :
    AtSlot 9 .begin (oper .begin 9)
    ∧ ¬ ((oper .begin 9).desk.current.toNat ≤ (oper .begin 9).desk.lower.toNat
      ∨ (oper .begin 9).desk.upper.toNat ≤ (oper .begin 9).desk.current.toNat)
    ∧ AtSlot 9 .begin ((oper .begin 9).withDesk { (oper .begin 9).desk with current := 600 })
    ∧ (600 : Pos).toNat ≤ (oper .begin 9).desk.lower.toNat ∧ (oper .begin 9).desk.upper.toNat ≤ (6300 : Pos).toNat
    ∧ configWellFormed tc = true
    ∧ modeCommand (oper .begin 9) (oper .begin 9).cfg.beginAtLimitNext = some (0xA0, 3000)
    ∧ modeCommand (oper .begin 9) .movingStop = some (0xA5, 3000) :=
  ⟨⟨by decide, rfl, rfl⟩, by decide, ⟨by decide, rfl, rfl⟩, by decide⟩

theorem witness_DeskNormalResult : AtSlot 9 .normal (oper .normal 9) := ⟨by decide, rfl, rfl⟩

theorem witness_DeskAnnouncingResult : AtSlot 9 .announcing (oper .announcing 9) := ⟨by decide, rfl, rfl⟩

theorem witness_DeskMovingResult :
    AtSlot 9 .movingUp (oper .movingUp 9) ∧ AtSlot 9 .movingDown (oper .movingDown 9) :=
  ⟨⟨by decide, rfl, rfl⟩, ⟨by decide, rfl, rfl⟩⟩

/-- The first and the last slow step. -/
theorem witness_DeskStoppingAndCalibrating :
    (AtSlot 9 .movingSlow (oper .movingSlow 9) ∧ (oper .movingSlow 9).op.slowCnt.toNat < 3)
    ∧ AtSlot 9 .movingSlow ((oper .movingSlow 9).withOp { (oper .movingSlow 9).op with slowCnt := 2 })
    ∧ AtSlot 9 .movingStop (oper .movingStop 9) ∧ AtSlot 9 .calibratingDone (oper .calibratingDone 9)
    ∧ AtSlot 9 .calibrating (oper .calibrating 9) :=
  ⟨⟨⟨by decide, rfl, rfl⟩, by decide⟩, ⟨by decide, rfl, rfl⟩, ⟨by decide, rfl, rfl⟩, ⟨by decide, rfl, rfl⟩,
   ⟨by decide, rfl, rfl⟩⟩

/-- Rescue-ticks 0, 21 and 22. -/
theorem witness_DeskRescueResult :
    (AtSlot 9 .rescue (oper .rescue 9) ∧ (oper .rescue 9).op.rescueT.toNat < 22)
    ∧ AtSlot 9 .rescue ((oper .rescue 9).withOp { (oper .rescue 9).op with rescueT := 21 })
    ∧ AtSlot 9 .rescue ((oper .rescue 9).withOp { (oper .rescue 9).op with rescueT := 22 }) :=
  ⟨⟨⟨by decide, rfl, rfl⟩, by decide⟩, ⟨by decide, rfl, rfl⟩, ⟨by decide, rfl, rfl⟩⟩

end Sys2Proof.Tests
end

section
/-! PROOFS. The scope (00_scope.md): a clean state's step runs its oldest input (R6, R13), and a model starts
exactly from a well-formed configuration (R8, R296). -/

namespace Sys2Proof.Machine

/-! ### The step, by what it finds -/

/-- A clean state is not halted. -/
theorem State.Clean.halted_eq_none {s : State} (h : s.Clean) : halted s = none := by
  simp [halted, h.faults, h.refused]

theorem fetch_of_decode {s : State} {x : Input} {rest : List Input} {i : Instr}
    (hinput : s.input = x :: rest) (hdecode : decode x = .ok i) :
    fetch s = .instr i (s.withInput rest) := by
  simp [fetch, hinput, hdecode]

/-- A step that is not halted and finds an instruction runs it. -/
theorem step_of_fetch {s s' : State} {i : Instr} (hhalted : halted s = none)
    (hfetch : fetch s = .instr i s') : step s = exec i s' := by
  simp [step, hhalted, hfetch]

/-- With no fault recorded, a refusal mark is the step's outcome (R296). -/
theorem step_of_refused {s : State} {r : Refusal} (hfaults : s.faults = [])
    (hrefused : s.refused = some r) : step s = .refused r := by
  simp [step, halted, hfaults, hrefused]

/-! ### Well-formed configurations -/

/-- The modes R8 (d) admits are those but the moving ones and Rescue. -/
theorem OMode.entersUnset_iff (m : OMode) :
    [OMode.begin, .normal, .announcing, .movingStop, .calibrating, .calibratingDone].contains m = true
      ↔ m ≠ .movingUp ∧ m ≠ .movingDown ∧ m ≠ .movingSlow ∧ m ≠ .rescue := by
  cases m <;> decide

/-- A payload of at least one byte is a payload that is not empty (R8 (b)). -/
theorem payloadLength_iff (p : List Byte) :
    1 ≤ p.length ∧ p.length ≤ 8 ↔ p ≠ [] ∧ p.length ≤ 8 := by
  rw [Nat.one_le_iff_ne_zero, ne_eq, List.length_eq_zero_iff]

theorem isBlocked_eq_false_iff (c : Config) (code : Byte) :
    isBlocked c code = false ↔ code ∉ c.blockedStates := by
  simp [isBlocked]

/-- The check of R8 is its five conditions (a) to (e). -/
theorem configWellFormed_iff (c : Config) :
    configWellFormed c = true ↔
      [c.addrMotorL, c.addrMotorR, c.addrHeartbeat, c.addrBroadcast, c.diagTxAddr,
        c.diagRxAddr].Nodup
      ∧ (c.hbPayload ≠ [] ∧ c.hbPayload.length ≤ 8) ∧ c.scanNad.toList.Nodup
      ∧ (c.beginAtLimitNext ≠ .movingUp ∧ c.beginAtLimitNext ≠ .movingDown
        ∧ c.beginAtLimitNext ≠ .movingSlow ∧ c.beginAtLimitNext ≠ .rescue)
      ∧ c.stateCalibrated ∉ c.blockedStates := by
  rw [configWellFormed]
  simp only [Bool.and_eq_true, decide_eq_true_iff, Bool.not_eq_true', payloadLength_iff,
    OMode.entersUnset_iff, isBlocked_eq_false_iff, and_assoc]

/-! ### Power-on -/

theorem powerOn_of_wellFormed {c : Config} (h : configWellFormed c = true) :
    powerOn c = State.reset.withCfg c := by
  simp [powerOn, h]

theorem powerOn_of_illFormed {c : Config} (h : configWellFormed c = false) :
    powerOn c = (State.reset.withCfg c).withRefused (some .configIllFormed) := by
  simp [powerOn, h]

/-- The first step of a model started from an ill-formed configuration is its refusal. -/
theorem step_powerOn_of_illFormed {c : Config} (h : configWellFormed c = false) :
    step (powerOn c) = .refused .configIllFormed := by
  rw [powerOn_of_illFormed h]
  exact step_of_refused rfl rfl

/-- The machine's reset state is the power-on state of this hardware's configuration. -/
theorem reset_eq_powerOn_hardware : State.reset = powerOn Config.hardware :=
  calc State.reset
    _ = State.reset.withCfg Config.hardware := (State.withCfg_self State.reset).symm
    _ = powerOn Config.hardware := (powerOn_of_wellFormed hardware_legal.wellFormed).symm

/-! ### The obligations -/

/-- Settles O5: a clean state is not halted, so the step runs what it fetches. -/
theorem stepRunsTheDecodedInput : Obligations.StepRunsTheDecodedInput := by
  intro s x rest i hclean hinput hdecode
  exact step_of_fetch hclean.halted_eq_none (fetch_of_decode hinput hdecode)

/-- Settles O7, from the check's meaning, the two outcomes of power-on, and this hardware's legal
configuration. -/
theorem powerOnChecksTheConfiguration : Obligations.PowerOnChecksTheConfiguration := by
  refine ⟨fun c => ⟨?check, powerOn_of_wellFormed, step_powerOn_of_illFormed⟩, ?hardware, ?start⟩
  case check => exact configWellFormed_iff c
  case hardware => exact hardware_legal.wellFormed
  case start => exact reset_eq_powerOn_hardware

end Sys2Proof.Machine
end

section
/-! PROOFS. What one instruction can do to the state (10_state.md R14): which calls a TICK makes of the
transport, what the calls of the byte pump and the micro-operations change, and one case for each way an
instruction answers a next state. -/

namespace Sys2Proof.Machine

/-! ### Frames -/

/-- `t` has `s`'s CFG, histories and the model's own fields but for the response. -/
structure SameHistory (s t : State) : Prop where
  cfg : t.cfg = s.cfg
  wire : t.wire = s.wire
  faults : t.faults = s.faults
  refused : t.refused = s.refused
  uopResult : t.uopResult = s.uopResult
  input : t.input = s.input

/-- What the controllers' own writes leave alone: the histories and the transport. -/
structure SameTransport (s t : State) : Prop extends SameHistory s t where
  regs : t.t = s.t

/-- `t` is `s` but for the response and two registers of the desk: the target and the calibration request. -/
structure OnlyRequest (s t : State) : Prop where
  rest : t = { s with desk := t.desk, resp := t.resp }
  desk : t.desk = { s.desk with target := t.desk.target, calibReq := t.desk.calibReq }

theorem SameTransport.refl (s : State) : SameTransport s s := ⟨⟨rfl, rfl, rfl, rfl, rfl, rfl⟩, rfl⟩

theorem SameTransport.trans {s t u : State} (h : SameTransport s t) (k : SameTransport t u) :
    SameTransport s u :=
  ⟨⟨k.cfg.trans h.cfg, k.wire.trans h.wire, k.faults.trans h.faults, k.refused.trans h.refused,
    k.uopResult.trans h.uopResult, k.input.trans h.input⟩, k.regs.trans h.regs⟩

theorem OnlyDiscovery.sameTransport {s t : State} (h : OnlyDiscovery s t) : SameTransport s t := by
  rw [h.rest]; exact ⟨⟨rfl, rfl, rfl, rfl, rfl, rfl⟩, rfl⟩

theorem OnlyDesk.sameTransport {s t : State} (h : OnlyDesk s t) : SameTransport s t := by
  rw [h.rest]; exact ⟨⟨rfl, rfl, rfl, rfl, rfl, rfl⟩, rfl⟩

theorem SameTransport.ofDesk (s : State) (v : Desk) : SameTransport s (s.withDesk v) :=
  ⟨⟨rfl, rfl, rfl, rfl, rfl, rfl⟩, rfl⟩

theorem SameTransport.ofOp (s : State) (v : Operation) : SameTransport s (s.withOp v) :=
  ⟨⟨rfl, rfl, rfl, rfl, rfl, rfl⟩, rfl⟩

theorem SameTransport.ofProcess (k : Fin 2) (r : List Byte) (s : State) :
    SameTransport s (process k r s) := by
  rcases process_cases k r s with h | ⟨-, -, -, h⟩ <;> rw [h]
  · exact ⟨⟨rfl, rfl, rfl, rfl, rfl, rfl⟩, rfl⟩
  · exact ⟨⟨rfl, rfl, rfl, rfl, rfl, rfl⟩, rfl⟩

theorem SameHistory.ofGetRx (s : State) : SameHistory s (transportGetRx s).2 := by
  obtain ⟨hwire, hfaults, hrefused⟩ := transportGetRx_history s
  obtain ⟨hcfg, -, -, -, -, -, -, huop, hinput⟩ := (OnlyTransport.ofGetRx s).same
  exact ⟨hcfg, hwire, hfaults, hrefused, huop, hinput⟩

/-! ### Discovery -/

theorem OnlyDiscovery.ofStepBegin (s : State) : OnlyDiscovery s (stepBegin s) := by
  unfold stepBegin
  split
  · exact .ofWithD _ _
  · exact ((OnlyDiscovery.ofWithD _ _).trans (.ofWithNode _ _)).trans (.ofEnter _ _)

theorem OnlyDiscovery.ofCountTick (s : State) : OnlyDiscovery s (countTick s).result := .ofWithD _ _

/-- The tick is counted unless the call before it has ended the step (R161). -/
theorem andThen_countTick_result (f : Flow) :
    (f.andThen countTick).result = f.result
    ∨ (f.andThen countTick).result = f.result.withD { f.result.d with discT := f.result.d.discT + 1 } := by
  cases f with
  | go u => exact .inr rfl
  | stop u => exact .inl rfl

theorem SameTransport.ofAndThenCountTick (f : Flow) : SameTransport f.result (f.andThen countTick).result := by
  rcases andThen_countTick_result f with h | h <;> rw [h]
  · exact .refl _
  · exact (OnlyDiscovery.ofWithD _ _).sameTransport

/-- Where discovery can be after an evaluation: in a discovery state, or complete, at slot 0 (R180). -/
def InStartupOrComplete (s : State) : Prop :=
  (∃ S, s.desk.mode = .startup S) ∨ (s.desk.mode = .operation .begin ∧ s.op.slot = 0)

theorem inStartupOrComplete_enter (S : DMode) (s : State) : InStartupOrComplete (enter S s) :=
  .inl ⟨S, rfl⟩

theorem inStartupOrComplete_retryRead (S : DMode) (s : State) : InStartupOrComplete (retryRead S s) :=
  inStartupOrComplete_enter _ _

theorem inStartupOrComplete_evalRegister (S next : DMode) (store : Byte → NodeRecord → NodeRecord)
    (r : List Byte) (s : State) : InStartupOrComplete (evalRegister S next store r s) := by
  rcases evalRegister_cases S next store r s with ⟨v, -, h⟩ | ⟨-, h⟩ <;> rw [h]
  · exact inStartupOrComplete_enter _ _
  · exact inStartupOrComplete_retryRead _ _

/-- D.WriteId counts the node and advances, or retries (R176). -/
theorem evalWriteId_cases (r : List Byte) (s : State) :
    (evalWriteId r s = advance ((updateNode
        (fun nd => { nd with ident := assignId s.cfg s.d.found.toNat, valid := true }) s).withD
      { s.d with found := s.d.found + 1, retry := 0 }))
    ∨ evalWriteId r s = retryRead .writeId s := by
  have hd (f : NodeRecord → NodeRecord) : (updateNode f s).d = s.d := by
    unfold updateNode; split <;> rfl
  unfold evalWriteId
  cases registerValue s.cfg .writeId r with
  | some v => simp [hd]
  | none => exact .inr rfl

/-- D.Post2 scans again or completes (R180). -/
theorem evalPost2_cases (s : State) :
    (s.d.found = 0 ∧ evalPost2 s = enter .scan (s.withD { s.d with cand := 0 }))
    ∨ (s.d.found ≠ 0 ∧ evalPost2 s = completeDiscovery s) := by
  unfold evalPost2
  by_cases h : s.d.found = 0
  · exact .inl ⟨h, if_pos h⟩
  · exact .inr ⟨h, if_neg h⟩

/-- D.Scan counts a response, raises ExtraNode at the third node, or advances (R169). -/
theorem evalScan_cases (r : List Byte) (s : State) :
    (s.d.found.toNat ≠ s.cfg.motorCount
      ∧ evalScan r s = .go (enter .readStatus (s.withD { s.d with retry := 0 })))
    ∨ evalScan r s = raise .extraNode s
    ∨ evalScan r s = .go (advance s) := by
  unfold evalScan
  by_cases h : 1 ≤ r.length
  · by_cases hf : s.d.found.toNat = s.cfg.motorCount
    · exact .inr (.inl (by rw [if_pos h, if_pos hf]))
    · exact .inl ⟨hf, by rw [if_pos h, if_neg hf]⟩
  · exact .inr (.inr (by rw [if_neg h]))

/-- An evaluation stays within discovery's registers and goes to a discovery state or completes; or it is
D.Scan's ExtraNode (R164 to R180). -/
theorem evalState_cases {S : DMode} (hS : S ≠ .begin) (r : List Byte) (s : State) :
    (∃ u, evalState S r s = .go u ∧ OnlyDiscovery s u ∧ InStartupOrComplete u)
    ∨ evalState S r s = raise .extraNode s := by
  have entered (S' : DMode) : OnlyDiscovery s (enter S' s) ∧ InStartupOrComplete (enter S' s) :=
    ⟨.ofEnter _ _, inStartupOrComplete_enter _ _⟩
  have register (S next : DMode) (store : Byte → NodeRecord → NodeRecord) :
      OnlyDiscovery s (evalRegister S next store r s)
        ∧ InStartupOrComplete (evalRegister S next store r s) :=
    ⟨.ofEvalRegister _ _ _ _ _, inStartupOrComplete_evalRegister _ _ _ _ _⟩
  cases S with
  | begin => exact absurd rfl hS
  | ann1 => exact .inl ⟨_, rfl, entered _⟩
  | ann2 => exact .inl ⟨_, rfl, entered _⟩
  | pre1 => exact .inl ⟨_, rfl, entered _⟩
  | pre2 => exact .inl ⟨_, rfl, entered _⟩
  | post1 => exact .inl ⟨_, rfl, entered _⟩
  | readStatus => exact .inl ⟨_, rfl, register _ _ _⟩
  | readUpHi => exact .inl ⟨_, rfl, register _ _ _⟩
  | readUpLo => exact .inl ⟨_, rfl, register _ _ _⟩
  | readLoHi => exact .inl ⟨_, rfl, register _ _ _⟩
  | readLoLo => exact .inl ⟨_, rfl, register _ _ _⟩
  | scan =>
    rcases evalScan_cases r s with ⟨-, h⟩ | h | h
    · exact .inl ⟨_, h, (OnlyDiscovery.ofWithD _ _).trans (.ofEnter _ _), inStartupOrComplete_enter _ _⟩
    · exact .inr h
    · exact .inl ⟨_, h, .ofAdvance _, inStartupOrComplete_enter _ _⟩
  | writeId =>
    refine .inl ⟨_, rfl, ?_⟩
    rcases evalWriteId_cases r s with h | h <;> rw [h]
    · exact ⟨(OnlyDiscovery.ofUpdateNode _ _).trans ((OnlyDiscovery.ofWithD _ _).trans (.ofAdvance _)),
        inStartupOrComplete_enter _ _⟩
    · exact ⟨.ofRetryRead _ _, inStartupOrComplete_retryRead _ _⟩
  | post2 =>
    refine .inl ⟨_, rfl, ?_⟩
    rcases evalPost2_cases s with ⟨-, h⟩ | ⟨-, h⟩ <;> rw [h]
    · exact ⟨(OnlyDiscovery.ofWithD _ _).trans (.ofEnter _ _), inStartupOrComplete_enter _ _⟩
    · exact ⟨.ofComplete _, .inr (by rw [completeDiscovery_eq]; exact ⟨rfl, rfl⟩)⟩

/-! ### The operation cycle -/

/-- The slot advances unless the slot's action has ended the step (R200). -/
theorem operationStep_result (m : OMode) (s : State) :
    (operationStep m s).result = (slotAction s.op.slot.toNat m s).result
    ∨ (operationStep m s).result = (slotAction s.op.slot.toNat m s).result.withOp
      { (slotAction s.op.slot.toNat m s).result.op with slot := nextSlot s.cfg s.op.slot } := by
  rcases operationStep_cases m s with ⟨u, ha, h⟩ | ⟨u, ha, h⟩ <;> rw [ha, h]
  · exact .inr rfl
  · exact .inl rfl

/-! ### The transport calls of a TICK -/

/-- The transport calls a TICK can make: none; T_GETRX, possibly followed by the fault ExtraNode; T_WRITE; or
T_READ, possibly after a T_GETRX. -/
inductive TickTransport (s t : State) : Prop where
  | quiet (h : SameTransport s t)
  | collect (h : SameTransport (transportGetRx s).2 t)
  | extraNode (h : SameTransport (raise .extraNode (transportGetRx s).2).result t)
  | write {u : State} (a : LinAddr) (p : List Byte) (hu : SameTransport s u)
      (h : SameTransport (transportWrite a p u).result t)
  | read {u : State} (a : LinAddr) (hu : SameTransport s u ∨ SameTransport (transportGetRx s).2 u)
      (h : SameTransport (transportRead a u).result t)

theorem TickTransport.trans {s t u : State} (h : TickTransport s t) (k : SameTransport t u) :
    TickTransport s u := by
  cases h with
  | quiet h => exact .quiet (h.trans k)
  | collect h => exact .collect (h.trans k)
  | extraNode h => exact .extraNode (h.trans k)
  | write a p hu h => exact .write a p hu (h.trans k)
  | read a hu h => exact .read a hu (h.trans k)

theorem tickTransport_discoveryStep (S : DMode) (s : State) :
    TickTransport s (discoveryStep S s).result := by
  rcases discoveryStep_cases S s with
    ⟨-, h⟩ | ⟨hS, ⟨-, h⟩ | ⟨-, h⟩ | ⟨-, ⟨-, h⟩ | ⟨-, h⟩⟩⟩ <;> rw [h]
  · exact .quiet (OnlyDiscovery.ofStepBegin s).sameTransport
  · exact .quiet (OnlyDiscovery.ofCountTick s).sameTransport
  · exact .write _ _ (.refl s) (.ofAndThenCountTick _)
  · exact .read _ (.inl (.refl s)) (.ofAndThenCountTick _)
  · rcases evalState_cases hS (transportGetRx s).1 (transportGetRx s).2 with ⟨u, hu, ho, -⟩ | hf
    · rw [hu]; exact .collect ho.sameTransport
    · rw [hf]; exact .extraNode (.refl _)

/-- Slot 0 and slot 10 write, slots 1 and 2 read, slots 2 and 3 collect (R201 to R210). -/
theorem tickTransport_slotAction (k : Nat) (m : OMode) (s : State) :
    TickTransport s (slotAction k m s).result := by
  unfold slotAction
  split
  · exact .write _ _ (.ofDesk _ _) (.refl _)
  · exact .read _ (.inl (.refl s)) (.refl _)
  · exact .read _ (.inr (.ofProcess _ _ _)) (.refl _)
  · exact .collect (.ofProcess _ _ _)
  · exact .quiet (.ofDesk _ _)
  · exact .quiet (OnlyDesk.ofStep m s).sameTransport
  · exact .write _ _ (.refl s) (.refl _)
  · exact .quiet (.ofDesk _ _)
  · exact .quiet (.refl s)

theorem tickTransport_operationStep (m : OMode) (s : State) :
    TickTransport s (operationStep m s).result := by
  refine (tickTransport_slotAction s.op.slot.toNat m s).trans ?_
  rcases operationStep_result m s with h | h <;> rw [h]
  · exact .refl _
  · exact .ofOp _ _

/-- One controller runs, by the mode's class (R160). -/
theorem tickBody_cases (s : State) :
    (s.desk.mode = .idle ∧ tickBody s = .go s)
    ∨ (∃ S, s.desk.mode = .startup S ∧ tickBody s = discoveryStep S s)
    ∨ (∃ m, s.desk.mode = .operation m ∧ tickBody s = operationStep m s) := by
  unfold tickBody
  cases s.desk.mode with
  | idle => exact .inl ⟨rfl, rfl⟩
  | startup S => exact .inr (.inl ⟨S, rfl, rfl⟩)
  | operation m => exact .inr (.inr ⟨m, rfl, rfl⟩)

theorem tickTransport_tickBody (s : State) : TickTransport s (tickBody s).result := by
  rcases tickBody_cases s with ⟨-, h⟩ | ⟨S, -, h⟩ | ⟨m, -, h⟩ <;> rw [h]
  · exact .quiet (.refl s)
  · exact tickTransport_discoveryStep S s
  · exact tickTransport_operationStep m s

/-! ### The instructions -/

/-- The events and micro-operations that run on the transport alone, and the reserved events, which only mark
the refusal. -/
inductive TransportCall (s t : State) : Instr → Prop where
  | txDone (hinflight : s.t.txInflight = true)
      (h : t = (txDoneBody (s.withT { s.t with txInflight := false })).result) : TransportCall s t .txDone
  | rxByte (b : Byte) (h : t = (receiveByte b s).result) : TransportCall s t (.rxByte b)
  | write (a : LinAddr) (p : List Byte) (h : t = (transportWrite a p s).result) :
      TransportCall s t (.tWrite a p)
  | read (a : LinAddr) (h : t = (transportRead a s).result) : TransportCall s t (.tRead a)
  | getRx (h : t = (transportGetRx s).2.withUopResult (some (transportGetRx s).1)) :
      TransportCall s t .tGetRx
  | reserved {i : Instr} (h : t = (refuse .reservedEvent s).result) : TransportCall s t i

/-- The ways an instruction answers a next state `t` from `s`. -/
inductive ExecNext (s t : State) : Instr → Prop where
  /-- A query, a request, or a command that is not admitted. -/
  | request {i : Instr} (h : OnlyRequest s t) : ExecNext s t i
  /-- START_DISCOVERY, admitted (R251). -/
  | start (hbus : s.t.busState ≠ .idle)
      (h : t = { enter .begin s with
        desk := { s.desk with mode := .startup .begin, busy := true }, resp := t.resp }) :
      ExecNext s t .startDiscovery
  /-- INIT and RESET (R252, R320). -/
  | restart {i : Instr} (hi : i = .reset ∨ ∃ e, i = .init e) (bus : BusState) (inflight : Bool)
      (hbus : bus = .ready ∨ bus = .idle)
      (h : t = { resetRegisters s with
        t := { Transport.atReset with busState := bus, txInflight := inflight }, resp := t.resp }) :
      ExecNext s t i
  | tick (h : t = (tickBody s).result) : ExecNext s t .tick
  | transport {i : Instr} (h : TransportCall s t i) : ExecNext s t i

theorem onlyRequest_answer {c : ResultCode} {v : BitVec 16} {s t : State} (h : answer c v s = .next t) :
    OnlyRequest s t := by
  cases h; exact ⟨rfl, rfl⟩

theorem onlyRequest_position {p : Pos} {s t : State} (h : execRequestPosition p s = .next t) :
    OnlyRequest s t := by
  unfold execRequestPosition at h
  split at h
  · exact onlyRequest_answer h
  · split at h
    · exact onlyRequest_answer h
    · cases h; exact ⟨rfl, rfl⟩

theorem onlyRequest_calibration {s t : State} (h : execRequestCalibration s = .next t) :
    OnlyRequest s t := by
  unfold execRequestCalibration at h
  split at h
  · exact onlyRequest_answer h
  · cases h; exact ⟨rfl, rfl⟩

theorem onlyRequest_halt {s t : State} (h : execRequestHalt s = .next t) : OnlyRequest s t := by
  cases h; exact ⟨rfl, rfl⟩

theorem execNext_startDiscovery {s t : State} (h : execStartDiscovery s = .next t) :
    ExecNext s t .startDiscovery := by
  unfold execStartDiscovery at h
  split at h
  case isTrue => exact .request (onlyRequest_answer h)
  case isFalse hbus =>
    split at h
    · exact .request (onlyRequest_answer h)
    · cases h; exact .start hbus rfl

theorem execNext_init {e : Bool} {s t : State} (h : execInit e s = .next t) : ExecNext s t (.init e) := by
  cases h
  exact .restart (.inr ⟨e, rfl⟩) _ _ (by cases e <;> simp) rfl

theorem execNext_txDone {s t : State} (h : execTxDone s = .next t) : ExecNext s t .txDone := by
  unfold execTxDone at h
  split at h
  case isTrue hinflight => cases h; exact .transport (.txDone hinflight rfl)
  case isFalse => cases h

/-- An instruction that answers a next state does so in one of the ways of `ExecNext`. -/
theorem execNext {i : Instr} {s t : State} (h : exec i s = .next t) : ExecNext s t i := by
  cases i with
  | init e => exact execNext_init h
  | startDiscovery => exact execNext_startDiscovery h
  | requestPosition p => exact .request (onlyRequest_position h)
  | requestCalibration => exact .request (onlyRequest_calibration h)
  | requestHalt => exact .request (onlyRequest_halt h)
  | tick => cases h; exact .tick rfl
  | txDone => exact execNext_txDone h
  | rxByte b => cases h; exact .transport (.rxByte b rfl)
  | reset => cases h; exact .restart (.inl rfl) .idle false (.inr rfl) rfl
  | tWrite a p => cases h; exact .transport (.write a p rfl)
  | tRead a => cases h; exact .transport (.read a rfl)
  | tGetRx => cases h; exact .transport (.getRx rfl)
  | reservedEvent0 | reservedEvent4 | reservedEvent8 | reservedEventC | reservedEventE =>
    cases h; exact .transport (.reserved rfl)
  | getBusy | getMode | getDrift | getPosition | getLowerLimit | getUpperLimit | getMotorState
  | getMotorPosition | getMotorLowerLimit | getMotorUpperLimit | getMotorAddress | getMotorCapability
  | reservedOpcode00 | reservedOpcode0F | reservedOpcode13 | reservedOpcode14 | reservedOpcode18
  | reservedOpcode20 | reservedOpcode40 | reservedOpcode80 =>
    exact .request (onlyRequest_answer h)

/-- Every call but T_GETRX leaves all but the transport alone. -/
theorem TransportCall.onlyTransport {i : Instr} {s t : State} (h : TransportCall s t i)
    (hi : i ≠ .tGetRx) : OnlyTransport s t := by
  cases h with
  | txDone _ h => rw [h]; exact (OnlyTransport.ofTxDone _).withT
  | rxByte b h => rw [h]; exact .ofRxByte b s
  | write a p h => rw [h]; exact .ofWrite a p s
  | read a h => rw [h]; exact .ofRead a s
  | getRx => exact absurd rfl hi
  | reserved h => rw [h]; exact ⟨rfl, .inl rfl, .inl rfl, by simp [refuse]⟩

/-- The registers no call writes. -/
theorem TransportCall.same {i : Instr} {s t : State} (h : TransportCall s t i) :
    t.node = s.node ∧ t.d = s.d ∧ t.desk = s.desk ∧ t.op = s.op := by
  by_cases hi : i = .tGetRx
  · subst hi
    cases h with
    | getRx h =>
      obtain ⟨-, hnode, -, hd, hdesk, hop, -⟩ := (OnlyTransport.ofGetRx s).same
      rw [h]; exact ⟨hnode, hd, hdesk, hop⟩
    | reserved h => rw [h]; exact ⟨rfl, rfl, rfl, rfl⟩
  · obtain ⟨-, hnode, -, hd, hdesk, hop, -⟩ := (h.onlyTransport hi).same
    exact ⟨hnode, hd, hdesk, hop⟩

/-- A property that every instruction keeps under a premise on CFG, and that does not look at the inputs, is kept
by every step. -/
theorem step_keeps {C : Config → Prop} {P : State → Prop} (hinput : ∀ s v, P s → P (s.withInput v))
    (hexec : ∀ i u v, C u.cfg → P u → ExecNext u v i → P v) {s t : State} (hcfg : C s.cfg) (hs : P s)
    (h : step s = .next t) : P t := by
  rcases step_next h with ⟨-, rfl⟩ | ⟨x, rest, i, -, -, -, -, he⟩
  · exact hs
  · exact hexec i (s.withInput rest) t hcfg (hinput s rest hs) (execNext he)

end Sys2Proof.Machine
end

section
/-! PROOFS. Who writes what (10_state.md): the histories only grow and CFG is constant (R49, R50, R75), and the
mode has four writers (R40). -/

namespace Sys2Proof.Machine

/-! ### The histories -/

/-- What R49, R50 and R75 say of one instruction, with the model's own fields. -/
structure HistoryGrows (s t : State) : Prop where
  cfg : t.cfg = s.cfg
  wire : t.wire = s.wire ∨ ∃ x, t.wire = s.wire ++ [x] ∧ t.t.txInflight = true
  faults : t.faults = s.faults ∨ ∃ f, f ∉ s.faults ∧ t.faults = s.faults ++ [f]
  refused : t.refused = none → s.refused = none
  uopResult : t.uopResult = s.uopResult
  input : t.input = s.input

theorem SameHistory.historyGrows {s t : State} (h : SameHistory s t) : HistoryGrows s t :=
  ⟨h.cfg, .inl h.wire, .inl h.faults, fun ht => h.refused.symm.trans ht, h.uopResult, h.input⟩

theorem OnlyTransport.historyGrows {s t : State} (h : OnlyTransport s t) : HistoryGrows s t := by
  obtain ⟨hcfg, -, -, -, -, -, -, huop, hinput⟩ := h.same
  exact ⟨hcfg, h.wire, h.faults, h.refused, huop, hinput⟩

/-- After writes that leave the histories alone, the histories grow by what follows. -/
theorem SameHistory.trans_grows {s t u : State} (h : SameHistory s t) (k : HistoryGrows t u) :
    HistoryGrows s u := by
  obtain ⟨hcfg, hwire, hfaults, hrefused, huop, hinput⟩ := h
  obtain ⟨kcfg, kwire, kfaults, krefused, kuop, kinput⟩ := k
  rw [hwire] at kwire; rw [hfaults] at kfaults; rw [hrefused] at krefused
  exact ⟨kcfg.trans hcfg, kwire, kfaults, krefused, kuop.trans huop, kinput.trans hinput⟩

/-- Writes that leave the transport alone keep what the histories have grown by. -/
theorem HistoryGrows.trans_same {s t u : State} (h : HistoryGrows s t) (k : SameTransport t u) :
    HistoryGrows s u := by
  obtain ⟨hcfg, hwire, hfaults, hrefused, huop, hinput⟩ := h
  rw [← k.wire, ← k.regs] at hwire; rw [← k.faults] at hfaults; rw [← k.refused] at hrefused
  exact ⟨k.cfg.trans hcfg, hwire, hfaults, hrefused, k.uopResult.trans huop, k.input.trans hinput⟩

/-- A TICK makes at most one call that writes a history. -/
theorem TickTransport.historyGrows {s t : State} (h : TickTransport s t) : HistoryGrows s t := by
  have collected := SameHistory.ofGetRx s
  cases h with
  | quiet h => exact h.historyGrows
  | collect h => exact collected.historyGrows.trans_same h
  | extraNode h => exact collected.trans_grows ((OnlyTransport.ofRaise _ _).historyGrows.trans_same h)
  | write a p hu h => exact hu.trans_grows ((OnlyTransport.ofWrite a p _).historyGrows.trans_same h)
  | read a hu h =>
    have read := (OnlyTransport.ofRead a _).historyGrows.trans_same h
    rcases hu with hu | hu
    · exact hu.trans_grows read
    · exact collected.trans_grows (hu.trans_grows read)

theorem OnlyRequest.sameHistory {s t : State} (h : OnlyRequest s t) : SameHistory s t := by
  rw [h.rest]; exact ⟨rfl, rfl, rfl, rfl, rfl, rfl⟩

/-- Every instruction but T_GETRX, whose result is the model's own field, lets the histories only grow. -/
theorem ExecNext.historyGrows {i : Instr} {s t : State} (h : ExecNext s t i) (hi : i ≠ .tGetRx) :
    HistoryGrows s t := by
  cases h with
  | request h => exact h.sameHistory.historyGrows
  | start _ h => rw [h]; exact SameHistory.historyGrows ⟨rfl, rfl, rfl, rfl, rfl, rfl⟩
  | restart _ _ _ _ h => rw [h]; exact SameHistory.historyGrows ⟨rfl, rfl, rfl, rfl, rfl, rfl⟩
  | tick h => rw [h]; exact (tickTransport_tickBody s).historyGrows
  | transport h => exact (h.onlyTransport hi).historyGrows

/-- Settles O13: every instruction is one of `ExecNext`'s cases, and T_GETRX writes no history. -/
theorem historyOnlyGrows : Obligations.HistoryOnlyGrows := by
  intro i s t h
  by_cases hi : i = .tGetRx
  · subst hi
    cases h
    obtain ⟨hcfg, hwire, hfaults, hrefused, -, hinput⟩ := (SameHistory.ofGetRx s).historyGrows
    exact ⟨hcfg, hwire, hfaults, hrefused, hinput, fun hne => absurd rfl hne⟩
  · obtain ⟨hcfg, hwire, hfaults, hrefused, huop, hinput⟩ := (execNext h).historyGrows hi
    exact ⟨hcfg, hwire, hfaults, hrefused, hinput, fun _ => huop⟩

/-! ### The mode -/

theorem OnlyRequest.mode {s t : State} (h : OnlyRequest s t) : t.desk.mode = s.desk.mode := by
  rw [h.desk]

/-- Settles O14: requests and transport calls keep the mode; the other cases are its four writers. -/
theorem modeWriters : Obligations.ModeWriters := by
  intro i s t h hmode
  cases execNext h with
  | request h => exact absurd h.mode hmode
  | start => exact .inr (.inr (.inl rfl))
  | restart hi =>
    rcases hi with hreset | hinit
    · exact .inr (.inl hreset)
    · exact .inr (.inr (.inr hinit))
  | tick => exact .inl rfl
  | transport h =>
    obtain ⟨-, -, hdesk, -⟩ := h.same
    exact absurd (congrArg Desk.mode hdesk) hmode

end Sys2Proof.Machine
end

section
/-! PROOFS. The transport's registers stay in range and agree with one another (10_state.md R24 to R30,
40_transport.md R132): each call keeps it, so a TICK and every step do. -/

namespace Sys2Proof.Machine

/-! ### The calls -/

/-- Outside Receiving the receiver is shut and holds nothing. -/
theorem TransportOk.shut {t : Transport} (h : TransportOk t) (hb : t.busState ≠ .receiving) :
    t.rxEnable = false ∧ t.echoPending = false ∧ t.rxCount.toNat = 0 := by
  have hrx : t.rxEnable = false := by simpa using mt h.enabled hb
  have hecho : t.echoPending = false := by simpa [hrx] using h.echo
  have hcount : t.rxCount.toNat = 0 := by
    by_contra hne
    exact hb (h.listening hne).1
  exact ⟨hrx, hecho, hcount⟩

/-- In Ready and Idle nothing is owed, so a shut receiver and the two lengths are enough. -/
theorem transportOk_of_shut {t : Transport} (hlen : t.txLen.toNat ≤ 11)
    (hidx : t.txIdx.toNat ≤ t.txLen.toNat) (hrx : t.rxEnable = false) (hecho : t.echoPending = false)
    (hcount : t.rxCount.toNat = 0) (hsent : t.busState = .ready ∨ t.busState = .idle ∨ t.txInflight = true) :
    TransportOk t where
  txLen := hlen
  txIdx := hidx
  rxCount := by omega
  listening h := absurd hcount h
  enabled h := by simp [hrx] at h
  echo h := by simp [hecho] at h
  pumping h := by
    rcases hsent with hb | hb | hi
    · simp [hb] at h
    · simp [hb] at h
    · exact hi

theorem transportOk_restarted {bus : BusState} {inflight : Bool} (hb : bus = .ready ∨ bus = .idle) :
    TransportOk { Transport.atReset with busState := bus, txInflight := inflight } :=
  transportOk_of_shut (by simp [Transport.atReset]) (by simp [Transport.atReset]) rfl rfl rfl
    (hb.imp_right .inl)

/-- `emit` leaves a symbol in flight, whether it puts one or raises. -/
theorem emit_result_t (x : Symbol) (s : State) : (emit x s).result.t = { s.t with txInflight := true } := by
  rcases emit_cases x s with ⟨-, h⟩ | ⟨hi, h⟩ <;> rw [h]
  · rfl
  · rw [raise_result, State.withFaults_t, ← hi]

theorem transportOk_write {s : State} (hmax : s.cfg.maxPayload = 8) (h : TransportOk s.t) (a : LinAddr)
    (p : List Byte) : TransportOk (transportWrite a p s).result.t := by
  rcases transportWrite_cases a p s with ⟨-, hw⟩ | ⟨-, -, hw⟩ | ⟨hlen, hready, -, hw⟩ <;> rw [hw]
  · exact h
  · exact h
  · obtain ⟨hrx, hecho, hcount⟩ := h.shut (by simp [hready])
    rw [emit_result_t]
    exact transportOk_of_shut (by simp [startWrite]; omega) (by simp [startWrite]) hrx hecho hcount
      (.inr (.inr rfl))

theorem transportOk_read {s : State} (h : TransportOk s.t) (a : LinAddr) :
    TransportOk (transportRead a s).result.t := by
  rcases transportRead_cases a s with ⟨-, hr⟩ | ⟨hready, hr⟩ <;> rw [hr]
  · exact h
  · obtain ⟨-, -, hcount⟩ := h.shut (by simp [hready])
    rw [emit_result_t]
    exact transportOk_of_shut (by simp [startRead]) (by simp [startRead]) rfl rfl hcount
      (.inr (.inr rfl))

theorem transportOk_getRx {s : State} (h : TransportOk s.t) : TransportOk (transportGetRx s).2.t := by
  rcases transportGetRx_cases s with ⟨-, hg⟩ | ⟨-, hg⟩ <;> rw [hg]
  · exact h
  · exact transportOk_of_shut h.txLen h.txIdx rfl rfl rfl (.inl rfl)

/-- The next byte is put while the index is below the length, so the index stays in range (R128). -/
theorem transportOk_pumpByte {s : State} (h : TransportOk s.t) (hidx : s.t.txIdx < s.t.txLen) (inflight : Bool) :
    TransportOk (pumpByte (s.withT { s.t with txInflight := inflight })).result.t := by
  have hnext : (s.t.txIdx + 1).toNat ≤ s.t.txLen.toNat := by have := h.txLen; bv_omega
  unfold pumpByte
  rw [emit_result_t]
  exact ⟨h.txLen, hnext, h.rxCount, h.listening, h.enabled, h.echo, fun _ => rfl⟩

theorem transportOk_txDone {s : State} (h : TransportOk s.t) :
    TransportOk (txDoneBody (s.withT { s.t with txInflight := false })).result.t := by
  rcases txDoneBody_cases (s.withT { s.t with txInflight := false }) with
    ⟨-, hidx, ht⟩ | ⟨hsending, -, ht⟩ | ⟨hreceiving, hrx, -, ht⟩ | ⟨hquiet, ht⟩ <;> rw [ht]
  case inl => exact transportOk_pumpByte h hidx false
  case inr.inl =>
    have hsending : s.t.busState = .sending := hsending
    obtain ⟨hrx, hecho, hcount⟩ := h.shut (by simp [hsending])
    exact transportOk_of_shut h.txLen h.txIdx hrx hecho hcount (.inl rfl)
  case inr.inr.inl =>
    have hreceiving : s.t.busState = .receiving := hreceiving
    exact ⟨h.txLen, h.txIdx, h.rxCount, fun _ => ⟨hreceiving, rfl⟩, fun _ => hreceiving, fun _ => rfl,
      by simp [hreceiving]⟩
  case inr.inr.inr =>
    refine ⟨h.txLen, h.txIdx, h.rxCount, h.listening, h.enabled, h.echo, fun hp => ?_⟩
    have hp : s.t.busState = .sending ∨ (s.t.busState = .receiving ∧ s.t.rxEnable = false) := hp
    rcases hquiet with (hb : s.t.busState = _) | (hb : s.t.busState = _) |
      ⟨(hb : s.t.busState = _), (hrx : s.t.rxEnable = _)⟩
    · simp [hb] at hp
    · simp [hb] at hp
    · simp [hb, hrx] at hp

theorem transportOk_rxByte {s : State} (hcap : s.cfg.rxCap = 9) (h : TransportOk s.t) (b : Byte) :
    TransportOk (receiveByte b s).result.t := by
  rcases receiveByte_cases b s with
    ⟨-, hr⟩ | ⟨hreceiving, hrx, ⟨-, -, hr⟩ | ⟨-, ⟨-, hr⟩ | ⟨hroom, hr⟩⟩⟩ <;> rw [hr]
  · exact h
  · exact ⟨h.txLen, h.txIdx, h.rxCount, h.listening, h.enabled, fun he => absurd he (by simp), h.pumping⟩
  · exact h
  · have hcount : (s.t.rxCount + 1).toNat ≤ 9 := by
      have := h.rxCount
      rw [hcap] at hroom
      bv_omega
    exact ⟨h.txLen, h.txIdx, hcount, fun _ => ⟨hreceiving, hrx⟩, h.enabled, h.echo, h.pumping⟩

/-! ### The obligation -/

theorem TickTransport.transportOk {s t : State} (hmax : s.cfg.maxPayload = 8) (h : TransportOk s.t)
    (ht : TickTransport s t) : TransportOk t.t := by
  cases ht with
  | quiet ht => rw [ht.regs]; exact h
  | collect ht => rw [ht.regs]; exact transportOk_getRx h
  | extraNode ht => rw [ht.regs, raise_result]; exact transportOk_getRx h
  | write a p hu ht =>
    rw [ht.regs]
    exact transportOk_write (hu.cfg ▸ hmax) (hu.regs ▸ h) a p
  | read a hu ht =>
    rw [ht.regs]
    rcases hu with hu | hu
    · exact transportOk_read (hu.regs ▸ h) a
    · exact transportOk_read (hu.regs ▸ transportOk_getRx h) a

theorem TransportCall.transportOk {i : Instr} {s t : State} (hcfg : s.cfg.tableValues = true)
    (h : TransportOk s.t) (ht : TransportCall s t i) : TransportOk t.t := by
  obtain ⟨-, -, -, -, -, -, -, -, -, -, -, -, hmax, hcap, -⟩ := tableValues_fields hcfg
  cases ht with
  | txDone _ ht => rw [ht]; exact transportOk_txDone h
  | rxByte b ht => rw [ht]; exact transportOk_rxByte hcap h b
  | write a p ht => rw [ht]; exact transportOk_write hmax h a p
  | read a ht => rw [ht]; exact transportOk_read h a
  | getRx ht => rw [ht]; exact transportOk_getRx h
  | reserved ht => rw [ht]; exact h

theorem ExecNext.transportOk {i : Instr} {s t : State} (hcfg : s.cfg.tableValues = true)
    (h : TransportOk s.t) (ht : ExecNext s t i) : TransportOk t.t := by
  cases ht with
  | request ht => rw [ht.rest]; exact h
  | start _ ht => rw [ht]; exact h
  | restart _ bus inflight hbus ht => rw [ht]; exact transportOk_restarted hbus
  | tick ht =>
    obtain ⟨-, -, -, -, -, -, -, -, -, -, -, -, hmax, -⟩ := tableValues_fields hcfg
    rw [ht]; exact (tickTransport_tickBody s).transportOk hmax h
  | transport ht => exact ht.transportOk hcfg h

/-- Settles O8: each of the transport's calls keeps the registers in range, and nothing else writes them. -/
theorem stepKeepsTransportOk : Obligations.StepKeepsTransportOk := by
  intro s t hcfg hs h
  exact step_keeps (C := fun c => c.tableValues = true) (P := fun s => TransportOk s.t)
    (fun _ _ hs => hs) (fun _ _ _ hcfg hs ht => ht.transportOk hcfg hs) hcfg hs h

end Sys2Proof.Machine
end

section
/-! PROOFS. The busy flag follows the mode and the slot, and a controller runs only on an enabled bus (10_state.md
R42, 42_operation.md R211, 43_facade.md R251 to R253). -/

namespace Sys2Proof.Machine

/-! ### The bus stays enabled -/

/-- The bus is not disabled between `s` and `t`: only INIT and RESET do that (R127, R252). -/
def KeepsEnabled (s t : State) : Prop := s.t.busState ≠ .idle → t.t.busState ≠ .idle

theorem keepsEnabled_of_eq {s t : State} (h : t.t.busState = s.t.busState) : KeepsEnabled s t :=
  fun hb => h ▸ hb

theorem KeepsEnabled.trans {s t u : State} (h : KeepsEnabled s t) (k : KeepsEnabled t u) :
    KeepsEnabled s u := fun hb => k (h hb)

theorem SameTransport.keepsEnabled {s t : State} (h : SameTransport s t) : KeepsEnabled s t :=
  keepsEnabled_of_eq (by rw [h.regs])

theorem keepsEnabled_emit (x : Symbol) (s : State) : KeepsEnabled s (emit x s).result :=
  keepsEnabled_of_eq (by rw [emit_result_t])

theorem keepsEnabled_write (a : LinAddr) (p : List Byte) (s : State) :
    KeepsEnabled s (transportWrite a p s).result := by
  rcases transportWrite_cases a p s with ⟨-, h⟩ | ⟨-, -, h⟩ | ⟨-, -, -, h⟩ <;> rw [h]
  · exact id
  · exact id
  · exact fun _ => keepsEnabled_emit .brk (s.withT (startWrite s.cfg a p s.t)) BusState.noConfusion

theorem keepsEnabled_read (a : LinAddr) (s : State) : KeepsEnabled s (transportRead a s).result := by
  rcases transportRead_cases a s with ⟨-, h⟩ | ⟨-, h⟩ <;> rw [h]
  · exact id
  · exact fun _ => keepsEnabled_emit .brk (s.withT (startRead s.cfg a s.t)) BusState.noConfusion

theorem keepsEnabled_getRx (s : State) : KeepsEnabled s (transportGetRx s).2 := by
  rcases transportGetRx_cases s with ⟨-, h⟩ | ⟨-, h⟩ <;> rw [h]
  · exact id
  · exact fun _ => BusState.noConfusion

theorem keepsEnabled_txDone (s : State) : KeepsEnabled s (txDoneBody s).result := by
  rcases txDoneBody_cases s with ⟨-, -, h⟩ | ⟨-, -, h⟩ | ⟨-, -, -, h⟩ | ⟨-, h⟩ <;> rw [h]
  · exact keepsEnabled_emit _ (s.withT { s.t with txIdx := s.t.txIdx + 1 })
  · exact fun _ => BusState.noConfusion
  · exact id
  · exact id

theorem keepsEnabled_rxByte (b : Byte) (s : State) : KeepsEnabled s (receiveByte b s).result := by
  rcases receiveByte_cases b s with ⟨-, h⟩ | ⟨-, -, ⟨-, -, h⟩ | ⟨-, ⟨-, h⟩ | ⟨-, h⟩⟩⟩ <;> rw [h] <;>
    exact id

theorem TransportCall.keepsEnabled {i : Instr} {s t : State} (h : TransportCall s t i) :
    KeepsEnabled s t := by
  cases h with
  | txDone _ h => rw [h]; exact keepsEnabled_txDone (s.withT { s.t with txInflight := false })
  | rxByte b h => rw [h]; exact keepsEnabled_rxByte b s
  | write a p h => rw [h]; exact keepsEnabled_write a p s
  | read a h => rw [h]; exact keepsEnabled_read a s
  | getRx h => rw [h]; exact keepsEnabled_getRx s
  | reserved h => rw [h]; exact id

theorem TickTransport.keepsEnabled {s t : State} (h : TickTransport s t) : KeepsEnabled s t := by
  have collected := keepsEnabled_getRx s
  cases h with
  | quiet h => exact h.keepsEnabled
  | collect h => exact collected.trans h.keepsEnabled
  | extraNode h => exact collected.trans h.keepsEnabled
  | write a p hu h => exact hu.keepsEnabled.trans ((keepsEnabled_write a p _).trans h.keepsEnabled)
  | read a hu h =>
    have read := (keepsEnabled_read a _).trans h.keepsEnabled
    rcases hu with hu | hu
    · exact hu.keepsEnabled.trans read
    · exact collected.trans (hu.keepsEnabled.trans read)

/-! ### The operation cycle's mode, slot and busy flag -/

/-- The desk is in the Operation class. -/
def InOperation (s : State) : Prop := ∃ m, s.desk.mode = .operation m

theorem InOperation.ite {c : Prop} [Decidable c] {s t : State} (hs : InOperation s) (ht : InOperation t) :
    InOperation (if c then s else t) := by
  split
  · exact hs
  · exact ht

theorem inOperation_setOMode (m : OMode) (s : State) : InOperation (setOMode m s) := ⟨m, rfl⟩

/-- The desk state machine goes from an Operation mode to an Operation mode. -/
theorem inOperation_dsmTransition (m : OMode) {s : State} (h : InOperation s) :
    InOperation (dsmTransition m s) := by
  cases m with
  | begin => exact inOperation_setOMode _ _
  | normal => exact .ite (inOperation_setOMode _ _) h
  | announcing =>
    exact .ite (inOperation_setOMode _ _) (.ite (inOperation_setOMode _ _)
      (.ite (inOperation_setOMode _ _) (inOperation_setOMode _ _)))
  | movingUp => exact .ite (inOperation_setOMode _ _) h
  | movingDown => exact .ite (inOperation_setOMode _ _) h
  | movingSlow => exact .ite (inOperation_setOMode _ _) h
  | movingStop => exact inOperation_setOMode _ _
  | calibrating => exact .ite (inOperation_setOMode _ _) h
  | calibratingDone => exact inOperation_setOMode _ _
  | rescue => exact .ite (inOperation_setOMode _ _) h

theorem inOperation_dsmStep (m : OMode) {s : State} (h : InOperation s) : InOperation (dsmStep m s) := by
  rcases dsmStep_cases m s with hd | ⟨m', -, hd⟩ <;> rw [hd] <;> exact inOperation_dsmTransition m h

/-- What a slot's action leaves: an Operation mode, the slot, and the busy flag at `busy`. -/
structure InCycle (slot : BitVec 5) (busy : Bool) (t : State) : Prop where
  operation : InOperation t
  slot : t.op.slot = slot
  busy : t.desk.busy = busy

theorem InCycle.ofTransport {slot : BitVec 5} {busy : Bool} {s t : State} (h : InCycle slot busy s)
    (ht : OnlyTransport s t) : InCycle slot busy t := by
  obtain ⟨-, -, -, -, hdesk, hop, -⟩ := ht.same
  obtain ⟨hm, hslot, hbusy⟩ := h
  exact ⟨by rw [InOperation, hdesk]; exact hm, by rw [hop]; exact hslot, by rw [hdesk]; exact hbusy⟩

theorem InCycle.ofProcess {slot : BitVec 5} {busy : Bool} {s : State} (h : InCycle slot busy s) (u : Fin 2)
    (r : List Byte) : InCycle slot busy (process u r s) := by
  rcases process_cases u r s with hp | ⟨-, -, -, hp⟩ <;> rw [hp]
  · exact ⟨h.operation, h.slot, h.busy⟩
  · exact ⟨inOperation_setOMode _ _, h.slot, h.busy⟩

theorem InCycle.ofDsmStep {slot : BitVec 5} {busy : Bool} {s : State} (h : InCycle slot busy s) (m : OMode) :
    InCycle slot busy (dsmStep m s) := by
  have hd := OnlyDesk.ofStep m s
  exact ⟨inOperation_dsmStep m h.operation, hd.slot.trans h.slot, by rw [hd.desk]; exact h.busy⟩

/-- The busy flag after slot `k`'s action: set in slot 0, cleared in slot 11, kept in the others (R42). -/
def busyAfterSlot (k : Nat) (busy : Bool) : Bool := if k = 0 then true else if k = 11 then false else busy

/-- The busy flag slot `k` asks for: set in 1 to 11, clear from 12 on, either in 0 (R42). -/
structure BusyAt (k : Nat) (busy : Bool) : Prop where
  set : 1 ≤ k → k ≤ 11 → busy = true
  clear : 12 ≤ k → busy = false

theorem busyAt_zero (busy : Bool) : BusyAt 0 busy := ⟨by omega, by omega⟩

theorem BusyAt.afterSlot_succ {k : Nat} {busy : Bool} (h : BusyAt k busy) :
    BusyAt (k + 1) (busyAfterSlot k busy) := by
  unfold busyAfterSlot
  split
  case isTrue => exact ⟨fun _ _ => rfl, by omega⟩
  case isFalse hpos =>
    split
    · exact ⟨by omega, fun _ => rfl⟩
    · exact ⟨fun _ _ => h.set (by omega) (by omega), fun _ => h.clear (by omega)⟩

/-- Slot 11 is the one slot whose flag the advance has to follow. -/
theorem BusyAt.afterSlot_same {k : Nat} {busy : Bool} (h : BusyAt k busy) (hk : k ≠ 11) :
    BusyAt k (busyAfterSlot k busy) := by
  unfold busyAfterSlot
  split
  case isTrue => exact ⟨fun _ _ => rfl, by omega⟩
  case isFalse => exact h

theorem inCycle_slotAction (k : Nat) (m : OMode) {s : State} (h : InOperation s) :
    InCycle s.op.slot (busyAfterSlot k s.desk.busy) (slotAction k m s).result := by
  have start : InCycle s.op.slot s.desk.busy s := ⟨h, rfl, rfl⟩
  have collected := start.ofTransport (.ofGetRx s)
  unfold slotAction
  split
  case h_1 =>
    have busy : InCycle s.op.slot true (s.withDesk { s.desk with busy := true }) := ⟨h, rfl, rfl⟩
    exact busy.ofTransport (.ofWrite _ _ _)
  case h_2 => exact start.ofTransport (.ofRead _ _)
  case h_3 => exact (collected.ofProcess _ _).ofTransport (.ofRead _ _)
  case h_4 => exact collected.ofProcess _ _
  case h_5 => exact ⟨h, rfl, rfl⟩
  case h_6 => exact start.ofDsmStep m
  case h_7 => exact start.ofTransport (.ofWrite _ _ _)
  case h_8 => exact ⟨h, rfl, rfl⟩
  case h_9 _ hne0 _ _ _ _ _ _ hne11 => 
    exact ⟨h, rfl, by rw [busyAfterSlot, if_neg hne0, if_neg hne11]; rfl⟩

/-- The slot advances by one or the cycle begins again (R200). -/
theorem nextSlot_cases (c : Config) (k : BitVec 5) :
    (nextSlot c k).toNat = 0 ∨ (nextSlot c k).toNat = k.toNat + 1 := by
  unfold nextSlot
  split
  · exact .inl rfl
  · bv_omega

/-! ### The obligation -/

theorem busyOk_idle {s : State} (hmode : s.desk.mode = .idle) (hbusy : s.desk.busy = false) : BusyOk s where
  idle _ := hbusy
  startup _ h := by simp [hmode] at h
  busySlots _ h := by simp [hmode] at h
  freeSlots _ h := by simp [hmode] at h
  busEnabled h := absurd hmode h

theorem busyOk_startup {s : State} {S : DMode} (hmode : s.desk.mode = .startup S) (hbusy : s.desk.busy = true)
    (hbus : s.t.busState ≠ .idle) : BusyOk s where
  idle h := by simp [hmode] at h
  startup _ _ := hbusy
  busySlots _ h := by simp [hmode] at h
  freeSlots _ h := by simp [hmode] at h
  busEnabled _ := hbus

theorem busyOk_operation {s : State} (hmode : InOperation s) (hbusy : BusyAt s.op.slot.toNat s.desk.busy)
    (hbus : s.t.busState ≠ .idle) : BusyOk s := by
  obtain ⟨m, hmode⟩ := hmode
  exact ⟨by simp [hmode], by simp [hmode], fun _ _ => hbusy.set, fun _ _ => hbusy.clear, fun _ => hbus⟩

/-- The invariant looks at the mode, the busy flag, the slot and whether the bus is enabled. -/
theorem BusyOk.congr {s t : State} (h : BusyOk s) (hmode : t.desk.mode = s.desk.mode)
    (hbusy : t.desk.busy = s.desk.busy) (hop : t.op = s.op) (hbus : KeepsEnabled s t) : BusyOk t := by
  obtain ⟨hidle, hstartup, hbusySlots, hfreeSlots, henabled⟩ := h
  refine ⟨?_, ?_, ?_, ?_, ?_⟩ <;> rw [hmode]
  · rwa [hbusy]
  · rwa [hbusy]
  · rwa [hbusy, hop]
  · rwa [hbusy, hop]
  · exact fun hm => hbus (henabled hm)

/-- The invariant after a step of discovery: the busy flag and the enabled bus are as before, and the mode is a
discovery state, or O.Begin at slot 0. -/
theorem busyOk_inStartupOrComplete {s : State} (hmode : InStartupOrComplete s) (hbusy : s.desk.busy = true)
    (hbus : s.t.busState ≠ .idle) : BusyOk s := by
  rcases hmode with ⟨S, hm⟩ | ⟨hm, hslot⟩
  · exact busyOk_startup hm hbusy hbus
  · exact busyOk_operation ⟨_, hm⟩ (by rw [hslot]; exact busyAt_zero _) hbus

theorem inStartupOrComplete_stepBegin {s : State} (h : InStartupOrComplete s) :
    InStartupOrComplete (stepBegin s) := by
  unfold stepBegin
  split
  · exact h
  · exact inStartupOrComplete_enter _ _

theorem OnlyTransport.inStartupOrComplete {s t : State} (ht : OnlyTransport s t)
    (h : InStartupOrComplete s) : InStartupOrComplete t := by
  obtain ⟨-, -, -, -, hdesk, hop, -⟩ := ht.same
  rw [InStartupOrComplete, hdesk, hop]
  exact h

/-- A step of discovery stays there or completes, and leaves the busy flag alone. -/
theorem discoveryStep_mode_busy {S : DMode} {s : State} (hmode : s.desk.mode = .startup S) :
    InStartupOrComplete (discoveryStep S s).result ∧ (discoveryStep S s).result.desk.busy = s.desk.busy := by
  have start : InStartupOrComplete s := .inl ⟨S, hmode⟩
  have counted {f : Flow} (hf : OnlyTransport s f.result) :
      InStartupOrComplete (f.andThen countTick).result
        ∧ (f.andThen countTick).result.desk.busy = s.desk.busy := by
    obtain ⟨-, -, -, -, hdesk, -⟩ := hf.same
    have hstays := hf.inStartupOrComplete start
    rcases andThen_countTick_result f with h | h <;> rw [h]
    · exact ⟨hstays, by rw [hdesk]⟩
    · exact ⟨hstays, by rw [State.withD_desk, hdesk]⟩
  rcases discoveryStep_cases S s with
    ⟨-, h⟩ | ⟨hS, ⟨-, h⟩ | ⟨-, h⟩ | ⟨-, ⟨-, h⟩ | ⟨-, h⟩⟩⟩ <;> rw [h]
  · exact ⟨inStartupOrComplete_stepBegin start, by rw [Flow.result_go, (OnlyDiscovery.ofStepBegin s).desk]⟩
  · exact ⟨start, rfl⟩
  · exact counted (.ofWrite _ _ s)
  · exact counted (.ofRead _ s)
  · obtain ⟨-, -, -, -, hdesk, -⟩ := (OnlyTransport.ofGetRx s).same
    rcases evalState_cases hS (transportGetRx s).1 (transportGetRx s).2 with ⟨u, hu, ho, hstays⟩ | hf
    · rw [hu]; exact ⟨hstays, by rw [Flow.result_go, ho.desk, hdesk]⟩
    · rw [hf]; exact ⟨(OnlyTransport.ofGetRx s).inStartupOrComplete start, congrArg Desk.busy hdesk⟩

/-- Slot 11's action never ends the step, so a step ended by a fault or a refusal leaves the busy flag as its
slot says. -/
theorem slotAction_stop_ne {k : Nat} {m : OMode} {s u : State} (h : slotAction k m s = .stop u) :
    k ≠ 11 := by
  rintro rfl
  cases h

/-- Slot 0's action sets the busy flag and slot 11's clears it, each before the slot advances (R201, R211). -/
theorem busyOk_operationStep {m : OMode} {s : State} (hmode : s.desk.mode = .operation m) (h : BusyOk s)
    (hbus : (operationStep m s).result.t.busState ≠ .idle) : BusyOk (operationStep m s).result := by
  have now : BusyAt s.op.slot.toNat s.desk.busy := ⟨h.busySlots m hmode, h.freeSlots m hmode⟩
  have action := inCycle_slotAction s.op.slot.toNat m ⟨m, hmode⟩
  rcases operationStep_cases m s with ⟨u, ha, hu⟩ | ⟨u, ha, hu⟩
  · rw [ha] at action
    rw [hu] at hbus ⊢
    refine busyOk_operation action.operation ?_ hbus
    have hbusy : u.desk.busy = busyAfterSlot s.op.slot.toNat s.desk.busy := action.busy
    show BusyAt (nextSlot s.cfg s.op.slot).toNat u.desk.busy
    rcases nextSlot_cases s.cfg s.op.slot with hn | hn <;> rw [hn]
    · exact busyAt_zero _
    · rw [hbusy]; exact now.afterSlot_succ
  · rw [ha] at action
    rw [hu] at hbus ⊢
    have kept := now.afterSlot_same (slotAction_stop_ne ha)
    rw [← action.busy, ← action.slot] at kept
    exact busyOk_operation action.operation kept hbus

theorem busyOk_tick {s : State} (h : BusyOk s) : BusyOk (tickBody s).result := by
  have enabled := (tickTransport_tickBody s).keepsEnabled
  rcases tickBody_cases s with ⟨-, ht⟩ | ⟨S, hm, ht⟩ | ⟨m, hm, ht⟩ <;> rw [ht] at enabled ⊢
  · exact h
  · obtain ⟨hmode, hbusy⟩ := discoveryStep_mode_busy hm
    exact busyOk_inStartupOrComplete hmode (hbusy.trans (h.startup S hm))
      (enabled (h.busEnabled (by simp [hm])))
  · exact busyOk_operationStep hm h (enabled (h.busEnabled (by simp [hm])))

theorem ExecNext.busyOk {i : Instr} {s t : State} (h : BusyOk s) (ht : ExecNext s t i) : BusyOk t := by
  cases ht with
  | request ht => rw [ht.rest, ht.desk]; exact h.congr rfl rfl rfl (keepsEnabled_of_eq rfl)
  | start hbus ht => rw [ht]; exact busyOk_startup (S := .begin) rfl rfl hbus
  | restart _ _ _ _ ht => rw [ht]; exact busyOk_idle rfl rfl
  | tick ht => rw [ht]; exact busyOk_tick h
  | transport ht =>
    obtain ⟨-, -, hdesk, hop⟩ := ht.same
    exact h.congr (by rw [hdesk]) (by rw [hdesk]) hop ht.keepsEnabled

/-- Settles O10: by the instruction; a TICK's part is `busyOk_tick`. -/
theorem stepKeepsBusyOk : Obligations.StepKeepsBusyOk := by
  intro s t hs h
  exact step_keeps (C := fun _ => True) (P := BusyOk)
    (fun _ _ hs => hs.congr rfl rfl rfl (keepsEnabled_of_eq rfl)) (fun _ _ _ _ hs ht => ht.busyOk hs)
    trivial hs h

end Sys2Proof.Machine
end

section
/-! PROOFS. The sequencing registers stay in range and the registry agrees with the counters (10_state.md R21,
R34 to R37, R44 to R46, 41_discovery.md R176, R178, R181); and the reset state meets every invariant (R51). -/

namespace Sys2Proof.Machine

/-! ### The invariant by the mode's class -/

/-- The registry holds `found` valid records, none of them at candidate `cand` or after it. -/
structure RegistryOk (cand found : Nat) (node : Vector NodeRecord 8) : Prop where
  count : (node.toList.filter (·.valid)).length = found
  fresh : ∀ k, ∀ h : k < 8, cand ≤ k → (node[k]'h).valid = false

/-- What `SequencerOk` says in the discovery state `S`. -/
structure ScanOk (S : DMode) (d : Discovery) (node : Vector NodeRecord 8) : Prop where
  candInScan : S.usesCandidate = true → d.cand.toNat < 8
  candAfter : S.afterScan = true → d.cand.toNat = 8
  before : S.beforeScan = true → d.cand.toNat = 0 ∧ d.found.toNat = 0
  foundInRead : S.isRegister = true → d.found.toNat ≤ 1
  registry : S ≠ .begin → RegistryOk d.cand.toNat d.found.toNat node

/-- What `SequencerOk` says in every mode. -/
structure CountersOk (d : Discovery) (op : Operation) : Prop where
  cand : d.cand.toNat ≤ 8
  found : d.found.toNat ≤ 2
  discT : d.discT.toNat ≤ 4
  slot : op.slot.toNat ≤ 18
  rescueT : op.rescueT.toNat ≤ 22

theorem SequencerOk.counters {s : State} (h : SequencerOk s) : CountersOk s.d s.op :=
  ⟨h.cand, h.found, h.discT, h.slot, h.rescueT⟩

theorem SequencerOk.scan {s : State} {S : DMode} (h : SequencerOk s) (hmode : s.desk.mode = .startup S) :
    ScanOk S s.d s.node :=
  ⟨h.candInScan S hmode, h.candAfter S hmode, h.before S hmode, h.foundInRead S hmode,
    fun hS => ⟨h.validCount S hmode hS, h.fresh S hmode hS⟩⟩

/-- Only in D.Begin can the retry count be 3. -/
theorem SequencerOk.retry_ne {s : State} (h : SequencerOk s) (hmode : s.desk.mode ≠ .startup .begin) :
    s.d.retry.toNat ≠ 3 := fun hr => hmode (h.retry hr)

theorem sequencerOk_of_parts {s : State} (hc : CountersOk s.d s.op)
    (hscan : ∀ S, s.desk.mode = .startup S → ScanOk S s.d s.node)
    (hretry : s.d.retry.toNat = 3 → s.desk.mode = .startup .begin)
    (hslow : s.desk.mode = .operation .movingSlow → s.op.slowCnt.toNat < 3) : SequencerOk s where
  cand := hc.cand
  candInScan S hS := (hscan S hS).candInScan
  candAfter S hS := (hscan S hS).candAfter
  before S hS := (hscan S hS).before
  found := hc.found
  foundInRead S hS := (hscan S hS).foundInRead
  validCount S hS hne := ((hscan S hS).registry hne).count
  fresh S hS hne := ((hscan S hS).registry hne).fresh
  discT := hc.discT
  retry := hretry
  slot := hc.slot
  rescueT := hc.rescueT
  slowCnt := hslow

theorem sequencerOk_idle {s : State} (hmode : s.desk.mode = .idle) (hc : CountersOk s.d s.op)
    (hretry : s.d.retry.toNat ≠ 3) : SequencerOk s :=
  sequencerOk_of_parts hc (by simp [hmode]) (fun h => absurd h hretry) (by simp [hmode])

theorem sequencerOk_startup {s : State} {S : DMode} (hmode : s.desk.mode = .startup S)
    (hc : CountersOk s.d s.op) (hscan : ScanOk S s.d s.node)
    (hretry : s.d.retry.toNat = 3 → S = .begin) : SequencerOk s := by
  refine sequencerOk_of_parts hc (fun S' h => ?_) (fun h => by rw [hmode, hretry h]) (by simp [hmode])
  obtain rfl : S = S' := by simpa [hmode] using h
  exact hscan

theorem sequencerOk_operation {s : State} {m : OMode} (hmode : s.desk.mode = .operation m)
    (hc : CountersOk s.d s.op) (hretry : s.d.retry.toNat ≠ 3)
    (hslow : m = .movingSlow → s.op.slowCnt.toNat < 3) : SequencerOk s :=
  sequencerOk_of_parts hc (by simp [hmode]) (fun h => absurd h hretry)
    (fun h => hslow (by simpa [hmode] using h))

/-- The invariant looks at the registry, the discovery registers, the mode and the operation registers. -/
theorem SequencerOk.congr {s t : State} (h : SequencerOk s) (hnode : t.node = s.node) (hd : t.d = s.d)
    (hmode : t.desk.mode = s.desk.mode) (hop : t.op = s.op) : SequencerOk t := by
  refine sequencerOk_of_parts ?_ (fun S hS => ?_) ?_ ?_
  · rw [hd, hop]; exact h.counters
  · rw [hd, hnode]; exact h.scan (hmode.symm.trans hS)
  · rw [hd, hmode]; exact h.retry
  · rw [hmode, hop]; exact h.slowCnt

theorem SequencerOk.ofTransport {s t : State} (h : SequencerOk s) (ht : OnlyTransport s t) :
    SequencerOk t := by
  obtain ⟨-, hnode, -, hd, hdesk, hop, -⟩ := ht.same
  exact h.congr hnode hd (by rw [hdesk]) hop

/-! ### The registry -/

theorem registryOk_reset : RegistryOk 0 0 (Vector.replicate 8 .atReset) where
  count := by simp [NodeRecord.atReset]
  fresh k h _ := by simp [NodeRecord.atReset]

theorem RegistryOk.advance {cand found : Nat} {node : Vector NodeRecord 8} (h : RegistryOk cand found node) :
    RegistryOk (cand + 1) found node :=
  ⟨h.count, fun k hk hle => h.fresh k hk (by omega)⟩

/-- With no node found every record is invalid, so the scan can begin again at candidate 0 (R180). -/
theorem RegistryOk.rescan {cand : Nat} {node : Vector NodeRecord 8} (h : RegistryOk cand 0 node) :
    RegistryOk 0 0 node := by
  refine ⟨h.count, fun k hk _ => ?_⟩
  have none_valid := List.filter_eq_nil_iff.1 (List.length_eq_zero_iff.1 h.count)
  simpa using none_valid (node[k]'hk) (by simp)

theorem RegistryOk.set_same {cand found k : Nat} {node : Vector NodeRecord 8} (h : RegistryOk cand found node)
    (hk : k < 8) {x : NodeRecord} (hx : x.valid = (node[k]'hk).valid) :
    RegistryOk cand found (node.set k x hk) := by
  refine ⟨(foundCount_set_same node k hk x hx.symm).trans h.count, fun j hj hle => ?_⟩
  rw [Vector.getElem_set]
  split
  case isTrue heq => subst heq; exact hx.trans (h.fresh k hk hle)
  case isFalse => exact h.fresh j hj hle

/-- The candidate's record becomes valid: one node more is found, and the next candidate is fresh (R176). -/
theorem RegistryOk.set_new {cand found : Nat} {node : Vector NodeRecord 8} (h : RegistryOk cand found node)
    (hk : cand < 8) {x : NodeRecord} (hx : x.valid = true) :
    RegistryOk (cand + 1) (found + 1) (node.set cand x hk) := by
  have hfresh := h.fresh cand hk le_rfl
  refine ⟨by rw [foundCount_set_new node cand hk x hfresh hx, h.count], fun j hj hle => ?_⟩
  rw [Vector.getElem_set_ne _ _ (by omega)]
  exact h.fresh j hj (by omega)

/-! ### The discovery states -/

theorem scanOk_begin (d : Discovery) (node : Vector NodeRecord 8) : ScanOk .begin d node := by
  constructor <;> simp [DMode.usesCandidate, DMode.afterScan, DMode.beforeScan, DMode.isRegister]

theorem scanOk_before {S : DMode} (hS : S.beforeScan = true) {d : Discovery} {node : Vector NodeRecord 8}
    (hcand : d.cand.toNat = 0) (hfound : d.found.toNat = 0) (hreg : RegistryOk d.cand.toNat d.found.toNat node) :
    ScanOk S d node where
  candInScan _ := by omega
  candAfter h := by cases S <;> simp [DMode.beforeScan, DMode.afterScan] at hS h
  before _ := ⟨hcand, hfound⟩
  foundInRead _ := by omega
  registry _ := hreg

theorem scanOk_scan {d : Discovery} {node : Vector NodeRecord 8} (hcand : d.cand.toNat < 8)
    (hreg : RegistryOk d.cand.toNat d.found.toNat node) : ScanOk .scan d node where
  candInScan _ := hcand
  candAfter h := by simp [DMode.afterScan] at h
  before h := by simp [DMode.beforeScan] at h
  foundInRead h := by simp [DMode.isRegister] at h
  registry _ := hreg

theorem scanOk_register {S : DMode} (hS : S.isRegister = true) {d : Discovery} {node : Vector NodeRecord 8}
    (hcand : d.cand.toNat < 8) (hfound : d.found.toNat ≤ 1)
    (hreg : RegistryOk d.cand.toNat d.found.toNat node) : ScanOk S d node where
  candInScan _ := hcand
  candAfter h := by cases S <;> simp [DMode.isRegister, DMode.afterScan] at hS h
  before h := by cases S <;> simp [DMode.isRegister, DMode.beforeScan] at hS h
  foundInRead _ := hfound
  registry _ := hreg

theorem scanOk_after {S : DMode} (hS : S.afterScan = true) {d : Discovery} {node : Vector NodeRecord 8}
    (hcand : d.cand.toNat = 8) (hreg : RegistryOk d.cand.toNat d.found.toNat node) : ScanOk S d node where
  candInScan h := by cases S <;> simp [DMode.afterScan, DMode.usesCandidate] at hS h
  candAfter _ := hcand
  before h := by cases S <;> simp [DMode.afterScan, DMode.beforeScan] at hS h
  foundInRead h := by cases S <;> simp [DMode.afterScan, DMode.isRegister] at hS h
  registry _ := hreg

theorem DMode.usesCandidate_of_isRegister {S : DMode} (h : S.isRegister = true) : S.usesCandidate = true := by
  cases S <;> simp [DMode.isRegister] at h <;> rfl

/-! ### Entering a discovery state -/

theorem sequencerOk_enter {S : DMode} {s : State} (hc : CountersOk s.d s.op) (hscan : ScanOk S s.d s.node)
    (hretry : s.d.retry.toNat = 3 → S = .begin) : SequencerOk (enter S s) :=
  sequencerOk_startup rfl ⟨hc.cand, hc.found, by simp [enter], hc.slot, hc.rescueT⟩
    ⟨hscan.candInScan, hscan.candAfter, hscan.before, hscan.foundInRead, hscan.registry⟩ hretry

/-- `advance()` from a candidate below 8 whose record is settled (R178). -/
theorem sequencerOk_advance {s : State} (hcount : s.cfg.scanCount = 8) (hc : CountersOk s.d s.op)
    (hcand : s.d.cand.toNat < 8) (hretry : s.d.retry.toNat ≠ 3)
    (hreg : RegistryOk (s.d.cand.toNat + 1) s.d.found.toNat s.node) : SequencerOk (advance s) := by
  have hnext : (BitVec.ofNat 4 (s.d.cand.toNat + 1)).toNat = s.d.cand.toNat + 1 := by
    rw [BitVec.toNat_ofNat]; omega
  have hc' : CountersOk { s.d with cand := BitVec.ofNat 4 (s.d.cand.toNat + 1) } s.op :=
    { hc with cand := by rw [hnext]; omega }
  rw [← hnext] at hreg
  rcases advance_cases s with ⟨hlast, h⟩ | ⟨hmore, h⟩ <;> rw [h]
  · exact sequencerOk_enter hc' (scanOk_after rfl (hnext.trans (hlast.trans hcount)) hreg)
      (fun hr => absurd hr hretry)
  · exact sequencerOk_enter hc' (scanOk_scan (hnext.trans_lt (by omega)) hreg)
      (fun hr => absurd hr hretry)

/-- `retry()`: the count is 3 only when it aborts to D.Begin (R177). -/
theorem sequencerOk_retryRead {S : DMode} {s : State} (hmax : s.cfg.retryMax = 2) (hc : CountersOk s.d s.op)
    (hscan : ScanOk S s.d s.node) : SequencerOk (retryRead S s) := by
  rcases retryRead_cases S s with ⟨hlow, h⟩ | ⟨-, h⟩ <;> rw [h]
  · refine sequencerOk_enter { hc with }
      ⟨hscan.candInScan, hscan.candAfter, hscan.before, hscan.foundInRead, hscan.registry⟩ (fun hr => ?_)
    rw [State.withD_d, BitVec.toNat_ofNat] at hr
    omega
  · exact sequencerOk_enter { hc with } (scanOk_begin _ _) (fun _ => rfl)

/-! ### The evaluations -/

/-- D.Begin holds, then clears the counters and the registry (R163). -/
theorem sequencerOk_stepBegin {s : State} (hhold : s.cfg.holdTicks = 2) (h : SequencerOk s)
    (hmode : s.desk.mode = .startup .begin) : SequencerOk (stepBegin s) := by
  have hc := h.counters
  unfold stepBegin
  split
  case isTrue hlow =>
    have hdiscT : (s.d.discT + 1).toNat ≤ 4 := by rw [hhold] at hlow; bv_omega
    exact sequencerOk_startup hmode { hc with discT := hdiscT } (scanOk_begin _ _) (fun _ => rfl)
  case isFalse =>
    exact sequencerOk_enter { hc with cand := by simp, found := by simp }
      (scanOk_before rfl rfl rfl registryOk_reset) (fun hr => by simp at hr)

/-- The four states before the scan go on with cleared counters (R164 to R167). -/
theorem SequencerOk.enterBefore {S next : DMode} {s : State} (h : SequencerOk s)
    (hmode : s.desk.mode = .startup S) (hS : S.beforeScan = true)
    (hnext : next.beforeScan = true ∨ next = .scan) : SequencerOk (enter next s) := by
  have hne : S ≠ .begin := by rintro rfl; simp [DMode.beforeScan] at hS
  have hscan := h.scan hmode
  obtain ⟨hcand, hfound⟩ := hscan.before hS
  refine sequencerOk_enter h.counters ?_ (fun hr => absurd hr (h.retry_ne (by simp [hmode, hne])))
  rcases hnext with hnext | rfl
  · exact scanOk_before hnext hcand hfound (hscan.registry hne)
  · exact scanOk_scan (by omega) (hscan.registry hne)

theorem sequencerOk_evalScan {s : State} (hcfg : s.cfg.tableValues = true) (h : SequencerOk s)
    (hmode : s.desk.mode = .startup .scan) (r : List Byte) : SequencerOk (evalScan r s).result := by
  obtain ⟨-, -, -, -, -, hcount, -, -, -, -, hmotors, -⟩ := tableValues_fields hcfg
  have hc := h.counters
  have hscan := h.scan hmode
  have hcand := hscan.candInScan rfl
  have hreg := hscan.registry (by simp)
  rcases evalScan_cases r s with ⟨hfound, he⟩ | he | he <;> rw [he]
  · have hone : s.d.found.toNat ≤ 1 := by have := hc.found; omega
    exact sequencerOk_enter { hc with } (scanOk_register rfl hcand hone hreg) (fun hr => by simp at hr)
  · exact h.ofTransport (.ofRaise _ _)
  · exact sequencerOk_advance hcount hc hcand (h.retry_ne (by simp [hmode])) hreg.advance

/-- A register read stores a field of the candidate's record, which stays invalid, or retries (R171 to R175). -/
theorem sequencerOk_evalRegister {S next : DMode} {store : Byte → NodeRecord → NodeRecord} {s : State}
    (hcfg : s.cfg.tableValues = true) (h : SequencerOk s) (hmode : s.desk.mode = .startup S)
    (hS : S.isRegister = true) (hnext : next.isRegister = true)
    (hstore : ∀ v nd, (store v nd).valid = nd.valid) (r : List Byte) :
    SequencerOk (evalRegister S next store r s) := by
  obtain ⟨-, -, -, -, hmax, -⟩ := tableValues_fields hcfg
  have hc := h.counters
  have hscan := h.scan hmode
  have hcand := hscan.candInScan (DMode.usesCandidate_of_isRegister hS)
  have hreg := hscan.registry (by rintro rfl; simp [DMode.isRegister] at hS)
  rcases evalRegister_cases S next store r s with ⟨v, -, he⟩ | ⟨-, he⟩ <;> rw [he]
  · rw [updateNode_of_lt _ hcand]
    exact sequencerOk_enter { hc with }
      (scanOk_register hnext hcand (hscan.foundInRead hS) (hreg.set_same hcand (hstore v _)))
      (fun hr => by simp at hr)
  · exact sequencerOk_retryRead hmax hc hscan

/-- D.WriteId makes the candidate's record valid and advances, or retries (R176). -/
theorem sequencerOk_evalWriteId {s : State} (hcfg : s.cfg.tableValues = true) (h : SequencerOk s)
    (hmode : s.desk.mode = .startup .writeId) (r : List Byte) : SequencerOk (evalWriteId r s) := by
  obtain ⟨-, -, -, -, hmax, hcount, -⟩ := tableValues_fields hcfg
  have hc := h.counters
  have hscan := h.scan hmode
  have hcand := hscan.candInScan rfl
  have hfound : (s.d.found + 1).toNat = s.d.found.toNat + 1 := by have := hscan.foundInRead rfl; bv_omega
  have htwo : (s.d.found + 1).toNat ≤ 2 := by have := hscan.foundInRead rfl; omega
  rcases evalWriteId_cases r s with he | he <;> rw [he]
  · rw [updateNode_of_lt _ hcand]
    refine sequencerOk_advance hcount { hc with found := htwo } hcand (by simp) ?_
    show RegistryOk (s.d.cand.toNat + 1) (s.d.found + 1).toNat _
    rw [hfound]
    exact (hscan.registry (by simp)).set_new hcand rfl
  · exact sequencerOk_retryRead hmax hc hscan

/-- D.Post2 scans again with an empty registry, or completes (R180). -/
theorem sequencerOk_evalPost2 {s : State} (h : SequencerOk s) (hmode : s.desk.mode = .startup .post2) :
    SequencerOk (evalPost2 s) := by
  have hc := h.counters
  have hretry := h.retry_ne (by simp [hmode])
  have hreg := (h.scan hmode).registry (by simp)
  rcases evalPost2_cases s with ⟨hzero, he⟩ | ⟨-, he⟩ <;> rw [he]
  · rw [hzero] at hreg
    refine sequencerOk_enter { hc with cand := by simp } (scanOk_scan (by simp) ?_)
      (fun hr => absurd hr hretry)
    show RegistryOk 0 s.d.found.toNat s.node
    rw [hzero]
    exact hreg.rescan
  · rw [completeDiscovery_eq]
    exact sequencerOk_operation rfl { hc with discT := by simp, slot := by simp } hretry nofun

theorem sequencerOk_evalState {S : DMode} {s : State} (hcfg : s.cfg.tableValues = true) (h : SequencerOk s)
    (hmode : s.desk.mode = .startup S) (r : List Byte) : SequencerOk (evalState S r s).result := by
  cases S with
  | begin => exact h
  | ann1 => exact h.enterBefore hmode rfl (.inl rfl)
  | ann2 => exact h.enterBefore hmode rfl (.inl rfl)
  | pre1 => exact h.enterBefore hmode rfl (.inl rfl)
  | pre2 => exact h.enterBefore hmode rfl (.inr rfl)
  | scan => exact sequencerOk_evalScan hcfg h hmode r
  | readStatus | readUpHi | readUpLo | readLoHi | readLoLo =>
    exact sequencerOk_evalRegister hcfg h hmode (by rfl) (by rfl) (by intros; rfl) r
  | writeId => exact sequencerOk_evalWriteId hcfg h hmode r
  | post1 =>
    have hscan := h.scan hmode
    exact sequencerOk_enter h.counters (scanOk_after rfl (hscan.candAfter rfl) (hscan.registry (by simp)))
      (fun hr => absurd hr (h.retry_ne (by simp [hmode])))
  | post2 => exact sequencerOk_evalPost2 h hmode

/-! ### A TICK of discovery -/

/-- Counting the tick below the evaluation keeps the count at most 4 (R36). -/
theorem SequencerOk.counted {s : State} (h : SequencerOk s) (hlow : s.d.discT.toNat ≤ 3) :
    SequencerOk (s.withD { s.d with discT := s.d.discT + 1 }) := by
  have hdiscT : (s.d.discT + 1).toNat ≤ 4 := by bv_omega
  refine sequencerOk_of_parts { h.counters with discT := hdiscT } (fun S hS => ?_) h.retry h.slowCnt
  have hscan := h.scan hS
  exact ⟨hscan.candInScan, hscan.candAfter, hscan.before, hscan.foundInRead, hscan.registry⟩

theorem SequencerOk.andThen_counted {s : State} (h : SequencerOk s) (hlow : s.d.discT.toNat ≤ 3) {f : Flow}
    (hf : OnlyTransport s f.result) : SequencerOk (f.andThen countTick).result := by
  obtain ⟨-, -, -, hd, -⟩ := hf.same
  have hcalled := h.ofTransport hf
  rcases andThen_countTick_result f with he | he <;> rw [he]
  · exact hcalled
  · exact hcalled.counted (by rw [hd]; exact hlow)

theorem sequencerOk_discoveryStep {S : DMode} {s : State} (hcfg : s.cfg.tableValues = true)
    (h : SequencerOk s) (hmode : s.desk.mode = .startup S) : SequencerOk (discoveryStep S s).result := by
  obtain ⟨-, -, -, -, -, -, hhold, hdelay, -⟩ := tableValues_fields hcfg
  rcases discoveryStep_cases S s with
    ⟨rfl, he⟩ | ⟨-, ⟨ht, he⟩ | ⟨ht, he⟩ | ⟨-, ⟨ht, he⟩ | ⟨-, he⟩⟩⟩ <;> rw [he]
  · exact sequencerOk_stepBegin hhold h hmode
  · exact h.counted (by omega)
  · exact h.andThen_counted (by omega) (.ofWrite _ _ s)
  · exact h.andThen_counted (by omega) (.ofRead _ s)
  · have collected := OnlyTransport.ofGetRx s
    obtain ⟨hc, -, -, -, hdesk, -⟩ := collected.same
    exact sequencerOk_evalState (by rw [hc]; exact hcfg) (h.ofTransport collected)
      (by rw [hdesk]; exact hmode) _

/-! ### A TICK of the operation cycle -/

/-- The sequencing invariant in the Operation class, where the registry plays no part. -/
structure CycleOk (s : State) : Prop where
  sequencer : SequencerOk s
  operation : InOperation s

theorem CycleOk.retry_ne {s : State} (h : CycleOk s) : s.d.retry.toNat ≠ 3 := by
  obtain ⟨m, hm⟩ := h.operation
  exact h.sequencer.retry_ne (by simp [hm])

/-- What a write in the Operation class has to keep. -/
theorem CycleOk.of_writes {s t : State} {m : OMode} (h : CycleOk s) (hmode : t.desk.mode = .operation m)
    (hd : t.d = s.d) (hslot : t.op.slot.toNat ≤ 18) (hrescueT : t.op.rescueT.toNat ≤ 22)
    (hslow : m = .movingSlow → t.op.slowCnt.toNat < 3) : CycleOk t := by
  have hc := h.sequencer.counters
  exact ⟨sequencerOk_operation hmode
    ⟨hd ▸ hc.cand, hd ▸ hc.found, hd ▸ hc.discT, hslot, hrescueT⟩ (hd ▸ h.retry_ne) hslow, m, hmode⟩

/-- A write that keeps the mode and the bounded counters. -/
theorem CycleOk.of_same {s t : State} (h : CycleOk s) (hmode : t.desk.mode = s.desk.mode) (hd : t.d = s.d)
    (hslot : t.op.slot = s.op.slot) (hrescueT : t.op.rescueT = s.op.rescueT)
    (hslowCnt : t.op.slowCnt = s.op.slowCnt) : CycleOk t := by
  obtain ⟨m, hm⟩ := h.operation
  refine h.of_writes (hmode.trans hm) hd (hslot ▸ h.sequencer.slot) (hrescueT ▸ h.sequencer.rescueT) ?_
  rintro rfl
  exact hslowCnt ▸ h.sequencer.slowCnt hm

/-- Every mode but O.MovingSlow may be entered with any slow count. -/
theorem cycleOk_setOMode {s : State} (h : CycleOk s) {m : OMode} (hm : m ≠ .movingSlow) :
    CycleOk (setOMode m s) :=
  h.of_writes rfl rfl h.sequencer.slot h.sequencer.rescueT (fun e => absurd e hm)

theorem CycleOk.ite {c : Prop} [Decidable c] {s t : State} (hs : CycleOk s) (ht : CycleOk t) :
    CycleOk (if c then s else t) := by
  split
  · exact hs
  · exact ht

theorem cycleOk_snapTarget {s : State} (h : CycleOk s) : CycleOk (snapTarget s) :=
  h.of_same rfl rfl rfl rfl rfl

theorem cycleOk_enterSlow {s : State} (h : CycleOk s) : CycleOk (enterSlow s) :=
  h.of_writes rfl rfl h.sequencer.slot h.sequencer.rescueT (fun _ => Nat.zero_lt_succ 2)

theorem cycleOk_enterRescue {s : State} (h : CycleOk s) : CycleOk (enterRescue s) :=
  h.of_writes rfl rfl h.sequencer.slot (by simp [enterRescue_eq]) nofun

/-- O.Begin goes to O.Normal or to the mode CFG names, which R8 (d) keeps from being O.MovingSlow (R213). -/
theorem cycleOk_dsmBegin {s : State} (hnext : s.cfg.beginAtLimitNext ≠ .movingSlow) (h : CycleOk s) :
    CycleOk (dsmBegin s) := by
  refine cycleOk_setOMode (cycleOk_snapTarget h) ?_
  split
  · exact hnext
  · nofun

/-- O.Announcing clears the request or sets the direction, and goes on to a mode that is not O.MovingSlow
(R215). -/
theorem cycleOk_dsmAnnouncing {s : State} (h : CycleOk s) : CycleOk (dsmAnnouncing s) := by
  unfold dsmAnnouncing
  refine .ite (cycleOk_setOMode ?_ nofun) (.ite (cycleOk_setOMode ?_ nofun)
    (.ite (cycleOk_setOMode ?_ nofun) (cycleOk_setOMode h nofun)))
  · exact h.of_same rfl rfl rfl rfl rfl
  · exact h.of_same rfl rfl rfl rfl rfl
  · exact h.of_same rfl rfl rfl rfl rfl

/-- O.MovingSlow counts, and is left when the count reaches 3 (R218). -/
theorem cycleOk_dsmMovingSlow {s : State} (hdwell : s.cfg.slowDwell = 3) (h : CycleOk s)
    (hmode : s.desk.mode = .operation .movingSlow) : CycleOk (dsmMovingSlow s) := by
  have hslow := h.sequencer.slowCnt hmode
  unfold dsmMovingSlow
  dsimp only
  split
  case isTrue => exact h.of_writes rfl rfl h.sequencer.slot h.sequencer.rescueT nofun
  case isFalse hlow =>
    refine h.of_writes hmode rfl h.sequencer.slot h.sequencer.rescueT (fun _ => ?_)
    rw [State.withOp_cfg, hdwell] at hlow
    rw [State.withOp_op, BitVec.toNat_ofNat]
    omega

/-- O.Rescue counts up to 22 and then returns (R222). -/
theorem cycleOk_dsmRescue {s : State} (hlen : s.cfg.rescueLen = 23) (h : CycleOk s)
    (hmode : s.desk.mode = .operation .rescue) : CycleOk (dsmRescue s) := by
  have hrescueT := h.sequencer.rescueT
  unfold dsmRescue
  dsimp only
  split
  case isTrue => exact cycleOk_setOMode (cycleOk_snapTarget h) nofun
  case isFalse hmore =>
    have hnext : (s.op.rescueT + 1).toNat ≤ 22 := by rw [hlen] at hmore; bv_omega
    exact h.of_writes hmode rfl h.sequencer.slot hnext nofun

theorem cycleOk_dsmTransition {m : OMode} {s : State} (hcfg : s.cfg.Legal) (h : CycleOk s)
    (hmode : s.desk.mode = .operation m) : CycleOk (dsmTransition m s) := by
  obtain ⟨-, -, -, hdwell, -, -, -, -, -, hlen, -⟩ := tableValues_fields hcfg.tableValues
  obtain ⟨-, -, -, ⟨-, -, hnext, -⟩, -⟩ := (configWellFormed_iff s.cfg).1 hcfg.wellFormed
  cases m with
  | begin => exact cycleOk_dsmBegin hnext h
  | normal => exact .ite (cycleOk_setOMode h nofun) h
  | announcing => exact cycleOk_dsmAnnouncing h
  | movingUp => exact .ite (cycleOk_enterSlow h) h
  | movingDown => exact .ite (cycleOk_enterSlow h) h
  | movingSlow => exact cycleOk_dsmMovingSlow hdwell h hmode
  | movingStop => exact cycleOk_setOMode (cycleOk_snapTarget h) nofun
  | calibrating => exact .ite (cycleOk_setOMode h nofun) h
  | calibratingDone => exact cycleOk_setOMode (cycleOk_snapTarget h) nofun
  | rescue => exact cycleOk_dsmRescue hlen h hmode

theorem cycleOk_dsmStep {m : OMode} {s : State} (hcfg : s.cfg.Legal) (h : CycleOk s)
    (hmode : s.desk.mode = .operation m) : CycleOk (dsmStep m s) := by
  have moved := cycleOk_dsmTransition hcfg h hmode
  rcases dsmStep_cases m s with hd | ⟨m', -, hd⟩ <;> rw [hd]
  · exact moved
  · exact moved.of_same rfl rfl rfl rfl rfl

theorem CycleOk.ofTransport {s t : State} (h : CycleOk s) (ht : OnlyTransport s t) : CycleOk t := by
  obtain ⟨-, -, -, hd, hdesk, hop, -⟩ := ht.same
  exact h.of_same (by rw [hdesk]) hd (by rw [hop]) (by rw [hop]) (by rw [hop])

theorem cycleOk_process {s : State} (h : CycleOk s) (u : Fin 2) (r : List Byte) : CycleOk (process u r s) := by
  have read : CycleOk (s.withMotor (s.motor.set u (readingOf s.cfg r s.motor[u]))) :=
    h.of_same rfl rfl rfl rfl rfl
  rcases process_cases u r s with hp | ⟨-, -, -, hp⟩ <;> rw [hp]
  · exact read
  · exact cycleOk_enterRescue read

theorem cycleOk_slotAction (k : Nat) {m : OMode} {s : State} (hcfg : s.cfg.Legal) (h : CycleOk s)
    (hmode : s.desk.mode = .operation m) : CycleOk (slotAction k m s).result := by
  have collected := h.ofTransport (.ofGetRx s)
  have withDesk {v : Desk} (hv : v.mode = s.desk.mode) : CycleOk (s.withDesk v) := h.of_same hv rfl rfl rfl rfl
  unfold slotAction
  split
  case h_1 =>
    have busy : CycleOk (s.withDesk { s.desk with busy := true }) := withDesk rfl
    exact busy.ofTransport (.ofWrite _ _ _)
  case h_2 => exact h.ofTransport (.ofRead _ s)
  case h_3 => exact (cycleOk_process collected _ _).ofTransport (.ofRead _ _)
  case h_4 => exact cycleOk_process collected _ _
  case h_5 => exact withDesk rfl
  case h_6 => exact cycleOk_dsmStep hcfg h hmode
  case h_7 => exact h.ofTransport (.ofWrite _ _ s)
  case h_8 => exact withDesk rfl
  case h_9 => exact h

theorem nextSlot_le {c : Config} {k : BitVec 5} (hlen : c.cycleLen = 19) (hk : k.toNat ≤ 18) :
    (nextSlot c k).toNat ≤ 18 := by
  unfold nextSlot
  split
  case isTrue => exact Nat.zero_le _
  case isFalse hmore => rw [hlen] at hmore; bv_omega

theorem cycleOk_withSlot {k : BitVec 5} {s : State} (h : CycleOk s) (hk : k.toNat ≤ 18) :
    CycleOk (s.withOp { s.op with slot := k }) := by
  obtain ⟨m, hm⟩ := h.operation
  exact h.of_writes hm rfl hk h.sequencer.rescueT (by rintro rfl; exact h.sequencer.slowCnt hm)

theorem sequencerOk_operationStep {m : OMode} {s : State} (hcfg : s.cfg.Legal) (h : SequencerOk s)
    (hmode : s.desk.mode = .operation m) : SequencerOk (operationStep m s).result := by
  obtain ⟨-, -, -, -, -, -, -, -, hlen, -⟩ := tableValues_fields hcfg.tableValues
  have acted := cycleOk_slotAction s.op.slot.toNat hcfg ⟨h, m, hmode⟩ hmode
  rcases operationStep_result m s with he | he <;> rw [he]
  · exact acted.sequencer
  · exact (cycleOk_withSlot acted (nextSlot_le hlen h.slot)).sequencer

/-! ### The obligations -/

theorem countersOk_reset : CountersOk .atReset .atReset := by
  constructor <;> simp [Discovery.atReset, Operation.atReset]

theorem ExecNext.sequencerOk {i : Instr} {s t : State} (hcfg : s.cfg.Legal) (h : SequencerOk s)
    (ht : ExecNext s t i) : SequencerOk t := by
  cases ht with
  | request ht => rw [ht.rest, ht.desk]; exact h.congr rfl rfl rfl rfl
  | start _ ht =>
    rw [ht]
    exact sequencerOk_startup rfl { h.counters with discT := by simp [enter] } (scanOk_begin _ _) (fun _ => rfl)
  | restart _ _ _ _ ht =>
    rw [ht]
    exact sequencerOk_idle rfl countersOk_reset (by simp [resetRegisters_eq, Discovery.atReset])
  | tick ht =>
    rw [ht]
    rcases tickBody_cases s with ⟨-, he⟩ | ⟨S, hm, he⟩ | ⟨m, hm, he⟩ <;> rw [he]
    · exact h
    · exact sequencerOk_discoveryStep hcfg.tableValues h hm
    · exact sequencerOk_operationStep hcfg h hm
  | transport ht =>
    obtain ⟨hnode, hd, hdesk, hop⟩ := ht.same
    exact h.congr hnode hd (by rw [hdesk]) hop

/-- Settles O9: by the instruction, and for a TICK by the controller that runs. -/
theorem stepKeepsSequencerOk : Obligations.StepKeepsSequencerOk := by
  intro s t hcfg hs h
  exact step_keeps (C := Config.Legal) (P := SequencerOk) (fun _ _ hs => hs.congr rfl rfl rfl rfl)
    (fun _ _ _ hcfg hs ht => ht.sequencerOk hcfg hs) hcfg hs h

/-- Settles O12: after reset the desk is idle and every register is clear. -/
theorem resetMeetsTheInvariants : Obligations.ResetMeetsTheInvariants := by
  intro c
  refine ⟨?transport, ?sequencer, ?busy, ?limits⟩
  case transport => exact transportOk_restarted (bus := .idle) (inflight := false) (.inr rfl)
  case sequencer => exact sequencerOk_idle rfl countersOk_reset (by simp [State.reset, Discovery.atReset])
  case busy => exact busyOk_idle rfl rfl
  case limits => exact ⟨nofun, nofun, nofun⟩

end Sys2Proof.Machine
end

section
/-! PROOFS. The frames of the inputs (20_memory.md R77): what the host commands other than INIT leave alone, and
what the byte pump and the micro-operations do. `ExecNext` is one shape for every instruction; these two families
need the sharper inversions below, which say which shape is theirs. -/

namespace Sys2Proof.Machine

/-! ### The host commands -/

/-- The registers the facade may write without INIT: the response, four registers of the desk, and the tick
counter that `enter` clears (R162). -/
structure OnlyFacade (s t : State) : Prop where
  rest : t = { s with d := t.d, desk := t.desk, resp := t.resp }
  d : t.d = { s.d with discT := t.d.discT }
  desk : t.desk = { s.desk with
    target := t.desk.target, mode := t.desk.mode, calibReq := t.desk.calibReq, busy := t.desk.busy }

theorem OnlyRequest.d {s t : State} (h : OnlyRequest s t) : t.d = s.d := by rw [h.rest]

theorem OnlyRequest.onlyFacade {s t : State} (h : OnlyRequest s t) : OnlyFacade s t where
  rest := by rw [h.d]; exact h.rest
  d := by rw [h.d]
  desk := by rw [h.desk]

/-- START_DISCOVERY answers NOT_READY or BUSY, or enters D.Begin and makes the desk busy (R251). -/
theorem execStartDiscovery_cases (s : State) :
    (s.t.busState = .idle ∧ execStartDiscovery s = answer .notReady 0 s)
    ∨ (s.t.busState ≠ .idle ∧ s.desk.busy = true ∧ execStartDiscovery s = answer .busy 0 s)
    ∨ (s.t.busState ≠ .idle ∧ s.desk.busy = false ∧ execStartDiscovery s
      = answer .ok 0 ((enter .begin s).withDesk { (enter .begin s).desk with busy := true })) := by
  unfold execStartDiscovery
  by_cases hbus : s.t.busState = .idle
  · exact .inl ⟨hbus, if_pos hbus⟩
  · rw [if_neg hbus]
    cases s.desk.busy with
    | true => exact .inr (.inl ⟨hbus, rfl, rfl⟩)
    | false => exact .inr (.inr ⟨hbus, rfl, rfl⟩)

theorem onlyFacade_startDiscovery {s t : State} (h : execStartDiscovery s = .next t) : OnlyFacade s t := by
  rcases execStartDiscovery_cases s with ⟨-, he⟩ | ⟨-, -, he⟩ | ⟨-, -, he⟩ <;> rw [he] at h
  · exact (onlyRequest_answer h).onlyFacade
  · exact (onlyRequest_answer h).onlyFacade
  · cases h; exact ⟨rfl, rfl, rfl⟩

/-- A host command other than INIT is a query, a request, a reserved opcode, or START_DISCOVERY. -/
theorem onlyFacade_command {i : Instr} {s t : State} (hcommand : Claims.isCommand i) (hinit : ∀ e, i ≠ .init e)
    (h : exec i s = .next t) : OnlyFacade s t := by
  cases i with
  | init e => exact absurd rfl (hinit e)
  | startDiscovery => exact onlyFacade_startDiscovery h
  | requestPosition p => exact (onlyRequest_position h).onlyFacade
  | requestCalibration => exact (onlyRequest_calibration h).onlyFacade
  | requestHalt => exact (onlyRequest_halt h).onlyFacade
  | getBusy | getMode | getDrift | getPosition | getLowerLimit | getUpperLimit | getMotorState
  | getMotorPosition | getMotorLowerLimit | getMotorUpperLimit | getMotorAddress | getMotorCapability
  | reservedOpcode00 | reservedOpcode0F | reservedOpcode13 | reservedOpcode14 | reservedOpcode18
  | reservedOpcode20 | reservedOpcode40 | reservedOpcode80 =>
    exact (onlyRequest_answer h).onlyFacade
  | tick | txDone | rxByte | reset | reservedEvent0 | reservedEvent4 | reservedEvent8 | reservedEventC
  | reservedEventE | tWrite | tRead | tGetRx => cases hcommand

theorem OnlyFacade.discovery_same {s t : State} (h : OnlyFacade s t) :
    t.d.cand = s.d.cand ∧ t.d.retry = s.d.retry ∧ t.d.found = s.d.found := by
  rw [h.d]; exact ⟨rfl, rfl, rfl⟩

theorem OnlyFacade.desk_same {s t : State} (h : OnlyFacade s t) :
    t.desk.lower = s.desk.lower ∧ t.desk.upper = s.desk.upper ∧ t.desk.current = s.desk.current := by
  rw [h.desk]; exact ⟨rfl, rfl, rfl⟩

/-- Settles O18: such a command writes only what the facade may write. -/
theorem commandFrame : Obligations.CommandFrame := by
  intro i s t hcommand hinit h
  have facade := onlyFacade_command hcommand hinit h
  obtain ⟨hcand, hretry, hfound⟩ := facade.discovery_same
  have desk := facade.desk_same
  rw [facade.rest]
  exact ⟨rfl, rfl, rfl, rfl, rfl, rfl, rfl, rfl, rfl, rfl, hcand, hretry, hfound, desk⟩

/-! ### The byte pump and the micro-operations -/

theorem transportCall_txDone {s t : State} (h : execTxDone s = .next t) : TransportCall s t .txDone := by
  unfold execTxDone at h
  split at h
  case isTrue hinflight => cases h; exact .txDone hinflight rfl
  case isFalse => cases h

/-- TX_DONE, RX_BYTE and the micro-operations each run one call of the transport. -/
theorem transportCall_exec {i : Instr} {s t : State}
    (hi : i = .txDone ∨ (∃ b, i = .rxByte b) ∨ (∃ a p, i = .tWrite a p) ∨ (∃ a, i = .tRead a) ∨ i = .tGetRx)
    (h : exec i s = .next t) : TransportCall s t i := by
  rcases hi with rfl | ⟨b, rfl⟩ | ⟨a, p, rfl⟩ | ⟨a, rfl⟩ | rfl
  · exact transportCall_txDone h
  · cases h; exact .rxByte b rfl
  · cases h; exact .write a p rfl
  · cases h; exact .read a rfl
  · cases h; exact .getRx rfl

/-- Settles O19: each is a transport call, and T_GETRX's also stores the micro-operation result. -/
theorem transportFrame : Obligations.TransportFrame := by
  intro i s t hi h
  by_cases hget : i = .tGetRx
  · subst hget
    cases h
    obtain ⟨hcfg, hnode, hmotor, hd, hdesk, hop, hresp, -, hinput⟩ := (OnlyTransport.ofGetRx s).same
    exact ⟨hnode, hmotor, hd, hdesk, hop, hcfg, hresp, hinput, fun hne => absurd rfl hne⟩
  · have call := transportCall_exec hi h
    obtain ⟨hcfg, hnode, hmotor, hd, hdesk, hop, hresp, huop, hinput⟩ := (call.onlyTransport hget).same
    exact ⟨hnode, hmotor, hd, hdesk, hop, hcfg, hresp, hinput, fun _ => huop⟩

end Sys2Proof.Machine
end

section
/-! PROOFS. The encoding (30_encoding.md): the decoder inverts the encoder (R80, R83 to R86), a word's other
bits are ignored (R80, R85), the opcode table's rows exclude each other (R83 to R85), and a reserved event
only marks the refusal (R296). -/

namespace Sys2Proof

open Claims Machine

/-! ### The fields of a word -/

@[simp] theorem cmdOpcode_cmdWord (op unit : BitVec 8) (data : BitVec 16) :
    cmdOpcode (cmdWord op unit data) = op := by
  unfold cmdOpcode cmdWord
  rw [BitVec.extractLsb'_append_eq_of_le (by decide)]
  exact BitVec.extractLsb'_append_eq_left

@[simp] theorem cmdUnit_cmdWord (op unit : BitVec 8) (data : BitVec 16) :
    cmdUnit (cmdWord op unit data) = unit := by
  unfold cmdUnit cmdWord
  rw [BitVec.extractLsb'_append_eq_of_le (by decide)]
  exact BitVec.extractLsb'_append_eq_right

@[simp] theorem cmdData_cmdWord (op unit : BitVec 8) (data : BitVec 16) :
    cmdData (cmdWord op unit data) = data :=
  BitVec.extractLsb'_append_eq_right

@[simp] theorem evtKind_evtWord (kind : BitVec 4) (data : BitVec 8) : evtKind (evtWord kind data) = kind := by
  unfold evtKind evtWord
  rw [BitVec.extractLsb'_append_eq_of_le (by decide)]
  exact BitVec.extractLsb'_append_eq_left

@[simp] theorem evtData_evtWord (kind : BitVec 4) (data : BitVec 8) : evtData (evtWord kind data) = data :=
  BitVec.extractLsb'_append_eq_right

/-- A command word is its three fields. -/
theorem cmdWord_fields (w : CmdWord) : cmdWord (cmdOpcode w) (cmdUnit w) (cmdData w) = w := by
  unfold cmdWord cmdOpcode cmdUnit cmdData
  rw [BitVec.extractLsb'_append_extractLsb'_eq_extractLsb' (by decide)]
  exact BitVec.extractLsb'_append_extractLsb'

/-- An event word is its kind, its ignored bits and its data. -/
theorem evtWord_fields (w : EvtWord) : evtKind w ++ w.extractLsb' 8 4 ++ evtData w = w := by
  unfold evtKind evtData
  rw [BitVec.extractLsb'_append_extractLsb'_eq_extractLsb' (by decide)]
  exact BitVec.extractLsb'_append_extractLsb'

theorem decodeCmd_cmdWord (op unit : BitVec 8) (data : BitVec 16) :
    decodeCmd (cmdWord op unit data) = decodeOpcode op unit data := by
  simp [decodeCmd]

theorem decodeEvt_evtWord (kind : BitVec 4) (data : BitVec 8) :
    decodeEvt (evtWord kind data) = decodeKind kind data := by
  simp [decodeEvt]

/-- A field with the high part `hi` is `hi` above its low bits. -/
theorem append_setWidth {m n : Nat} {hi : BitVec m} {x : BitVec (m + n)} (h : x.toNat / 2 ^ n = hi.toNat) :
    hi ++ x.setWidth n = x := by
  apply BitVec.eq_of_toNat_eq
  have hlow := (x.setWidth n).isLt
  rw [BitVec.toNat_append, ← Nat.shiftLeft_add_eq_or_of_lt hlow, Nat.shiftLeft_eq, BitVec.toNat_setWidth, ← h]
  exact Nat.div_add_mod' _ _

/-! ### The reserved ranges -/

section
variable {op : BitVec 8} (unit : BitVec 8) (data : BitVec 16)

theorem decodeOpcode_of_ge (h : 0x14 ≤ op.toNat) : decodeOpcode op unit data =
    if op < 0x18#8 then .reservedOpcode14 (op.setWidth 2)
    else if op < 0x20#8 then .reservedOpcode18 (op.setWidth 3)
    else if op < 0x40#8 then .reservedOpcode20 (op.setWidth 5)
    else if op < 0x80#8 then .reservedOpcode40 (op.setWidth 6)
    else .reservedOpcode80 (op.setWidth 7) := by
  unfold decodeOpcode
  split
  case h_21 => rfl
  all_goals omega

theorem decodeOpcode_reserved14 (h : op.toNat / 2 ^ 2 = 0x05) :
    decodeOpcode op unit data = .reservedOpcode14 (op.setWidth 2) := by
  rw [decodeOpcode_of_ge _ _ (by omega), if_pos (by bv_omega)]

theorem decodeOpcode_reserved18 (h : op.toNat / 2 ^ 3 = 0x03) :
    decodeOpcode op unit data = .reservedOpcode18 (op.setWidth 3) := by
  rw [decodeOpcode_of_ge _ _ (by omega), if_neg (by bv_omega), if_pos (by bv_omega)]

theorem decodeOpcode_reserved20 (h : op.toNat / 2 ^ 5 = 0x1) :
    decodeOpcode op unit data = .reservedOpcode20 (op.setWidth 5) := by
  rw [decodeOpcode_of_ge _ _ (by omega), if_neg (by bv_omega), if_neg (by bv_omega), if_pos (by bv_omega)]

theorem decodeOpcode_reserved40 (h : op.toNat / 2 ^ 6 = 0x1) :
    decodeOpcode op unit data = .reservedOpcode40 (op.setWidth 6) := by
  rw [decodeOpcode_of_ge _ _ (by omega), if_neg (by bv_omega), if_neg (by bv_omega), if_neg (by bv_omega),
    if_pos (by bv_omega)]

theorem decodeOpcode_reserved80 (h : op.toNat / 2 ^ 7 = 0x1) :
    decodeOpcode op unit data = .reservedOpcode80 (op.setWidth 7) := by
  rw [decodeOpcode_of_ge _ _ (by omega), if_neg (by bv_omega), if_neg (by bv_omega), if_neg (by bv_omega),
    if_neg (by bv_omega)]

end

section
variable {kind : BitVec 4} (data : BitVec 8)

theorem decodeKind_of_range (hlo : 0x4 ≤ kind.toNat) (hhi : kind.toNat < 0xE) : decodeKind kind data =
    if kind < 0x8#4 then .reservedEvent4 (kind.setWidth 2)
    else if kind < 0xC#4 then .reservedEvent8 (kind.setWidth 2)
    else .reservedEventC (kind.setWidth 1) := by
  unfold decodeKind
  split
  case h_7 => rfl
  all_goals omega

theorem decodeKind_reserved4 (h : kind.toNat / 2 ^ 2 = 0x1) :
    decodeKind kind data = .reservedEvent4 (kind.setWidth 2) := by
  rw [decodeKind_of_range _ (by omega) (by omega), if_pos (by bv_omega)]

theorem decodeKind_reserved8 (h : kind.toNat / 2 ^ 2 = 0x2) :
    decodeKind kind data = .reservedEvent8 (kind.setWidth 2) := by
  rw [decodeKind_of_range _ (by omega) (by omega), if_neg (by bv_omega), if_pos (by bv_omega)]

theorem decodeKind_reservedC (h : kind.toNat / 2 ^ 1 = 0x6) :
    decodeKind kind data = .reservedEventC (kind.setWidth 1) := by
  rw [decodeKind_of_range _ (by omega) (by omega), if_neg (by bv_omega), if_neg (by bv_omega)]

end

/-! ### Decoding the encoder's words -/

theorem decode_plainCmd (op : BitVec 8) : decode (plainCmd op) = .ok (decodeOpcode op 0 0) := by
  simp [decode, plainCmd, decodeCmd_cmdWord]

theorem decode_plainEvt (kind : BitVec 4) : decode (plainEvt kind) = .ok (decodeKind kind 0) := by
  simp [decode, plainEvt, decodeEvt_evtWord]

/-- Settles O1: the fields of an encoded word are the ones it was made of, and a range's low bits are read back
from under its fixed part. -/
theorem decodeInvertsEncode : Obligations.DecodeInvertsEncode := by
  intro i
  have low {m n : Nat} (hi : BitVec m) (lo : BitVec n) : (hi ++ lo).setWidth n = lo :=
    BitVec.setWidth_append_eq_right
  cases i with
  | init e => cases e <;> rfl
  | getMotorState u | getMotorPosition u | getMotorLowerLimit u | getMotorUpperLimit u | getMotorAddress u
  | getMotorCapability u => exact congrArg Except.ok (decodeCmd_cmdWord _ u 0)
  | requestPosition p => exact congrArg Except.ok (decodeCmd_cmdWord 0x10 0 p)
  | rxByte b => exact congrArg Except.ok (decodeEvt_evtWord 0x3 b)
  | reservedOpcode14 k =>
    rw [encode, decode_plainCmd, decodeOpcode_reserved14 _ _ (Laws.append_div _ _), low]
  | reservedOpcode18 k =>
    rw [encode, decode_plainCmd, decodeOpcode_reserved18 _ _ (Laws.append_div _ _), low]
  | reservedOpcode20 k =>
    rw [encode, decode_plainCmd, decodeOpcode_reserved20 _ _ (Laws.append_div _ _), low]
  | reservedOpcode40 k =>
    rw [encode, decode_plainCmd, decodeOpcode_reserved40 _ _ (Laws.append_div _ _), low]
  | reservedOpcode80 k =>
    rw [encode, decode_plainCmd, decodeOpcode_reserved80 _ _ (Laws.append_div _ _), low]
  | reservedEvent4 k => rw [encode, decode_plainEvt, decodeKind_reserved4 _ (Laws.append_div _ _), low]
  | reservedEvent8 k => rw [encode, decode_plainEvt, decodeKind_reserved8 _ (Laws.append_div _ _), low]
  | reservedEventC k => rw [encode, decode_plainEvt, decodeKind_reservedC _ (Laws.append_div _ _), low]
  | startDiscovery | getBusy | getMode | getDrift | getPosition | getLowerLimit | getUpperLimit
  | requestCalibration | requestHalt | reservedOpcode00 | reservedOpcode0F | reservedOpcode13 =>
    exact decode_plainCmd _
  | tick | txDone | reset | reservedEvent0 | reservedEventE => exact decode_plainEvt _
  | tWrite a p => rfl
  | tRead a => rfl
  | tGetRx => rfl

/-! ### The bits a row ignores -/

theorem cmdWord_and_cmdWord (op unit op' unit' : BitVec 8) (data data' : BitVec 16) :
    cmdWord op unit data &&& cmdWord op' unit' data'
      = cmdWord (op &&& op') (unit &&& unit') (data &&& data') := by
  unfold cmdWord
  rw [BitVec.and_append, BitVec.and_append]

section
variable (op unit : BitVec 8) (data : BitVec 16)

theorem cmdWord_opcodeBits : cmdWord op unit data &&& 0xFF000000 = cmdWord op 0 0 := by
  rw [show (0xFF000000 : CmdWord) = cmdWord (BitVec.allOnes 8) 0#8 0#16 by decide, cmdWord_and_cmdWord,
    BitVec.and_allOnes, BitVec.and_zero, BitVec.and_zero]
  rfl

theorem cmdWord_unitBits : cmdWord op unit data &&& 0xFFFF0000 = cmdWord op unit 0 := by
  rw [show (0xFFFF0000 : CmdWord) = cmdWord (BitVec.allOnes 8) (BitVec.allOnes 8) 0#16 by decide,
    cmdWord_and_cmdWord, BitVec.and_allOnes, BitVec.and_allOnes, BitVec.and_zero]
  rfl

theorem cmdWord_dataBits : cmdWord op unit data &&& 0xFF00FFFF = cmdWord op 0 data := by
  rw [show (0xFF00FFFF : CmdWord) = cmdWord (BitVec.allOnes 8) 0#8 (BitVec.allOnes 16) by decide,
    cmdWord_and_cmdWord, BitVec.and_allOnes, BitVec.and_allOnes, BitVec.and_zero]
  rfl

theorem cmdWord_enableBit :
    cmdWord op unit data &&& 0xFF000001 = cmdWord op 0 (if data.getLsbD 0 then 1 else 0) := by
  have hbit : data &&& 1#16 = if data.getLsbD 0 then 1 else 0 := by
    rw [BitVec.and_one_eq_setWidth_ofBool_getLsbD]
    cases data.getLsbD 0 <;> rfl
  rw [show (0xFF000001 : CmdWord) = cmdWord (BitVec.allOnes 8) 0#8 1#16 by decide, cmdWord_and_cmdWord,
    BitVec.and_allOnes, BitVec.and_zero, hbit]
  rfl

/-- An instruction that is encoded by its opcode alone is encoded by the opcode bits of every word with that
opcode. -/
theorem encode_eq_opcodeBits {op : BitVec 8} {i : Instr} (hmask : cmdMask i = 0xFF000000)
    (henc : encode i = plainCmd op) : encode i = .cmd (cmdWord op unit data &&& cmdMask i) := by
  rw [hmask, henc, cmdWord_opcodeBits, plainCmd]

end

/-- An opcode is one of the twenty below 0x14 or lies in one of the five reserved ranges (R83, R84). -/
theorem opcode_cases (op : BitVec 8) :
    op.toNat < 0x14 ∨ op.toNat / 2 ^ 2 = 0x05 ∨ op.toNat / 2 ^ 3 = 0x03 ∨ op.toNat / 2 ^ 5 = 0x1
    ∨ op.toNat / 2 ^ 6 = 0x1 ∨ op.toNat / 2 ^ 7 = 0x1 := by
  have h := op.isLt
  omega

/-- Below 0x14 each opcode has its own row: its operand is the enable bit, the unit, the data, or none. -/
theorem encode_decodeOpcode_of_lt {op : BitVec 8} (unit : BitVec 8) (data : BitVec 16) (hop : op.toNat < 0x14) :
    encode (decodeOpcode op unit data)
      = .cmd (cmdWord op unit data &&& cmdMask (decodeOpcode op unit data)) := by
  have opcode {k : Nat} (h : op.toNat = k) : BitVec.ofNat 8 k = op := by simp [← h]
  unfold decodeOpcode
  split
  case h_2 h => rw [cmdMask, cmdWord_enableBit, ← opcode h]; rfl
  case h_10 h | h_11 h | h_12 h | h_13 h | h_14 h | h_15 h => rw [cmdMask, cmdWord_unitBits, ← opcode h]; rfl
  case h_17 h => rw [cmdMask, cmdWord_dataBits, ← opcode h]; rfl
  case h_1 h | h_3 h | h_4 h | h_5 h | h_6 h | h_7 h | h_8 h | h_9 h | h_16 h | h_18 h | h_19 h | h_20 h =>
    exact encode_eq_opcodeBits unit data rfl (congrArg plainCmd (opcode h))
  case h_21 => simp only [imp_false] at *; omega

theorem encode_decodeOpcode (op unit : BitVec 8) (data : BitVec 16) :
    encode (decodeOpcode op unit data)
      = .cmd (cmdWord op unit data &&& cmdMask (decodeOpcode op unit data)) := by
  rcases opcode_cases op with h | h | h | h | h | h
  · exact encode_decodeOpcode_of_lt unit data h
  · rw [decodeOpcode_reserved14 _ _ h]
    exact encode_eq_opcodeBits unit data rfl (congrArg plainCmd (append_setWidth h))
  · rw [decodeOpcode_reserved18 _ _ h]
    exact encode_eq_opcodeBits unit data rfl (congrArg plainCmd (append_setWidth h))
  · rw [decodeOpcode_reserved20 _ _ h]
    exact encode_eq_opcodeBits unit data rfl (congrArg plainCmd (append_setWidth h))
  · rw [decodeOpcode_reserved40 _ _ h]
    exact encode_eq_opcodeBits unit data rfl (congrArg plainCmd (append_setWidth h))
  · rw [decodeOpcode_reserved80 _ _ h]
    exact encode_eq_opcodeBits unit data rfl (congrArg plainCmd (append_setWidth h))

theorem encode_decodeCmd (w : CmdWord) : encode (decodeCmd w) = .cmd (w &&& cmdMask (decodeCmd w)) := by
  rw [← cmdWord_fields w, decodeCmd_cmdWord]
  exact encode_decodeOpcode _ _ _

section
variable (kind mid : BitVec 4) (data : BitVec 8)

theorem evtWord_kindBits : kind ++ mid ++ data &&& 0xF000 = evtWord kind 0 := by
  rw [show (0xF000 : EvtWord) = BitVec.allOnes 4 ++ 0#4 ++ 0#8 by decide, BitVec.and_append, BitVec.and_append,
    BitVec.and_allOnes, BitVec.and_zero, BitVec.and_zero]
  rfl

theorem evtWord_dataBits : kind ++ mid ++ data &&& 0xF0FF = evtWord kind data := by
  rw [show (0xF0FF : EvtWord) = BitVec.allOnes 4 ++ 0#4 ++ BitVec.allOnes 8 by decide, BitVec.and_append,
    BitVec.and_append, BitVec.and_allOnes, BitVec.and_zero, BitVec.and_allOnes]
  rfl

theorem encode_eq_kindBits {kind : BitVec 4} {i : Instr} (hmask : evtMask i = 0xF000)
    (henc : encode i = plainEvt kind) : encode i = .evt (kind ++ mid ++ data &&& evtMask i) := by
  rw [hmask, henc, evtWord_kindBits, plainEvt]

end

/-- A kind is one of the six with a row of their own or lies in one of the three reserved ranges (R85). -/
theorem kind_cases (kind : BitVec 4) :
    (kind.toNat < 0x4 ∨ 0xE ≤ kind.toNat) ∨ kind.toNat / 2 ^ 2 = 0x1 ∨ kind.toNat / 2 ^ 2 = 0x2
    ∨ kind.toNat / 2 ^ 1 = 0x6 := by
  have h := kind.isLt
  omega

/-- Outside the ranges each kind has its own row, and only RX_BYTE's has an operand. -/
theorem encode_decodeKind_of_row {kind : BitVec 4} (mid : BitVec 4) (data : BitVec 8)
    (hkind : kind.toNat < 0x4 ∨ 0xE ≤ kind.toNat) :
    encode (decodeKind kind data) = .evt (kind ++ mid ++ data &&& evtMask (decodeKind kind data)) := by
  have code {k : Nat} (h : kind.toNat = k) : BitVec.ofNat 4 k = kind := by simp [← h]
  have hlt := kind.isLt
  unfold decodeKind
  split
  case h_4 h => rw [evtMask, evtWord_dataBits, ← code h]; rfl
  case h_1 h | h_2 h | h_3 h | h_5 h | h_6 h =>
    exact encode_eq_kindBits mid data rfl (congrArg plainEvt (code h))
  case h_7 => simp only [imp_false] at *; omega

theorem encode_decodeKind (kind mid : BitVec 4) (data : BitVec 8) :
    encode (decodeKind kind data) = .evt (kind ++ mid ++ data &&& evtMask (decodeKind kind data)) := by
  rcases kind_cases kind with h | h | h | h
  · exact encode_decodeKind_of_row mid data h
  · rw [decodeKind_reserved4 _ h]
    exact encode_eq_kindBits mid data rfl (congrArg plainEvt (append_setWidth h))
  · rw [decodeKind_reserved8 _ h]
    exact encode_eq_kindBits mid data rfl (congrArg plainEvt (append_setWidth h))
  · rw [decodeKind_reservedC _ h]
    exact encode_eq_kindBits mid data rfl (congrArg plainEvt (append_setWidth h))

theorem encode_decodeEvt (w : EvtWord) : encode (decodeEvt w) = .evt (w &&& evtMask (decodeEvt w)) := by
  have h := encode_decodeKind (evtKind w) (w.extractLsb' 8 4) (evtData w)
  rwa [evtWord_fields] at h

/-- Settles O2: a word's meaningful bits are what its instruction is encoded by, and O1 decodes them back. -/
theorem ignoredBitsHaveNoEffect : Obligations.IgnoredBitsHaveNoEffect := by
  refine ⟨fun w => ⟨encode_decodeCmd w, ?cmd⟩, fun w => ⟨encode_decodeEvt w, ?evt⟩⟩
  case cmd =>
    have h := decodeInvertsEncode (decodeCmd w)
    rw [encode_decodeCmd] at h
    exact Except.ok.inj h
  case evt =>
    have h := decodeInvertsEncode (decodeEvt w)
    rw [encode_decodeEvt] at h
    exact Except.ok.inj h

/-! ### The rows of the opcode table -/

open Laws in
/-- The encoding of every instruction is a word of its own row. -/
theorem row_admits_encode (i : Instr) : i.row.admits (encode i) = true := by
  cases i with
  | init e => exact EncodesInItsRow.init e
  | startDiscovery => exact EncodesInItsRow.startDiscovery
  | getBusy => exact EncodesInItsRow.getBusy
  | getMode => exact EncodesInItsRow.getMode
  | getDrift => exact EncodesInItsRow.getDrift
  | getPosition => exact EncodesInItsRow.getPosition
  | getLowerLimit => exact EncodesInItsRow.getLowerLimit
  | getUpperLimit => exact EncodesInItsRow.getUpperLimit
  | getMotorState u => exact EncodesInItsRow.getMotorState u
  | getMotorPosition u => exact EncodesInItsRow.getMotorPosition u
  | getMotorLowerLimit u => exact EncodesInItsRow.getMotorLowerLimit u
  | getMotorUpperLimit u => exact EncodesInItsRow.getMotorUpperLimit u
  | getMotorAddress u => exact EncodesInItsRow.getMotorAddress u
  | getMotorCapability u => exact EncodesInItsRow.getMotorCapability u
  | requestPosition p => exact EncodesInItsRow.requestPosition p
  | requestCalibration => exact EncodesInItsRow.requestCalibration
  | requestHalt => exact EncodesInItsRow.requestHalt
  | reservedOpcode00 => exact EncodesInItsRow.reservedOpcode00
  | reservedOpcode0F => exact EncodesInItsRow.reservedOpcode0F
  | reservedOpcode13 => exact EncodesInItsRow.reservedOpcode13
  | reservedOpcode14 k => exact EncodesInItsRow.reservedOpcode14 k
  | reservedOpcode18 k => exact EncodesInItsRow.reservedOpcode18 k
  | reservedOpcode20 k => exact EncodesInItsRow.reservedOpcode20 k
  | reservedOpcode40 k => exact EncodesInItsRow.reservedOpcode40 k
  | reservedOpcode80 k => exact EncodesInItsRow.reservedOpcode80 k
  | tick => exact EncodesInItsRow.tick
  | txDone => exact EncodesInItsRow.txDone
  | rxByte b => exact EncodesInItsRow.rxByte b
  | reset => exact EncodesInItsRow.reset
  | reservedEvent0 => exact EncodesInItsRow.reservedEvent0
  | reservedEvent4 k => exact EncodesInItsRow.reservedEvent4 k
  | reservedEvent8 k => exact EncodesInItsRow.reservedEvent8 k
  | reservedEventC k => exact EncodesInItsRow.reservedEventC k
  | reservedEventE => exact EncodesInItsRow.reservedEventE
  | tWrite a p => exact EncodesInItsRow.tWrite a p
  | tRead a => exact EncodesInItsRow.tRead a
  | tGetRx => exact EncodesInItsRow.tGetRx

theorem admits_iff (row : TableRow) (x : Input) :
    row.admits x = true ↔ x.portWord.1 = row.port ∧ x.portWord.2 &&& row.mask = row.pattern := by
  simp [TableRow.admits]

/-- A word's masked bits are what a mask inside that mask sees. -/
theorem and_mask_and {n : Nat} (w mask : BitVec n) (inner : Nat) (h : mask.toNat &&& inner = inner) :
    (w &&& mask).toNat &&& inner = w.toNat &&& inner := by
  rw [BitVec.toNat_and, Nat.land_assoc, h]

/-- A command row's mask lies within the bits the command reads. -/
theorem cmdMask_and_rowMask {i : Instr} (h : i.row.port = .cmd32) :
    (cmdMask i).toNat &&& i.row.mask = i.row.mask := by
  cases i with
  | tick | txDone | rxByte | reset | reservedEvent0 | reservedEvent4 | reservedEvent8 | reservedEventC
  | reservedEventE | tWrite | tRead | tGetRx => cases h
  | _ => simp [cmdMask, Instr.row, commandRow]

/-- An event row's mask lies within the bits the event reads. -/
theorem evtMask_and_rowMask {i : Instr} (h : i.row.port = .evt16) :
    (evtMask i).toNat &&& i.row.mask = i.row.mask := by
  cases i with
  | tick | txDone | rxByte | reset | reservedEvent0 | reservedEvent4 | reservedEvent8 | reservedEventC
  | reservedEventE => simp [evtMask, Instr.row]
  | _ => cases h

/-- The decoded row admits the word, since it admits the word's meaningful bits. -/
theorem decodeCmd_row_admits (w : CmdWord) : (decodeCmd w).row.admits (.cmd w) = true := by
  have h := row_admits_encode (decodeCmd w)
  rw [encode_decodeCmd, admits_iff] at h
  obtain ⟨hport, hbits⟩ := h
  exact (admits_iff _ _).2 ⟨hport, (and_mask_and w _ _ (cmdMask_and_rowMask hport.symm)).symm.trans hbits⟩

theorem decodeEvt_row_admits (w : EvtWord) : (decodeEvt w).row.admits (.evt w) = true := by
  have h := row_admits_encode (decodeEvt w)
  rw [encode_decodeEvt, admits_iff] at h
  obtain ⟨hport, hbits⟩ := h
  exact (admits_iff _ _).2 ⟨hport, (and_mask_and w _ _ (evtMask_and_rowMask hport.symm)).symm.trans hbits⟩

/-- The rows of spec/opcode_table.json, one for each constructor. -/
def tableRows : List TableRow :=
  [Instr.init false, .startDiscovery, .getBusy, .getMode, .getDrift, .getPosition, .getLowerLimit,
    .getUpperLimit, .getMotorState 0, .getMotorPosition 0, .getMotorLowerLimit 0, .getMotorUpperLimit 0,
    .getMotorAddress 0, .getMotorCapability 0, .requestPosition 0, .requestCalibration, .requestHalt,
    .reservedOpcode00, .reservedOpcode0F, .reservedOpcode13, .reservedOpcode14 0, .reservedOpcode18 0,
    .reservedOpcode20 0, .reservedOpcode40 0, .reservedOpcode80 0, .tick, .txDone, .rxByte 0, .reset,
    .reservedEvent0, .reservedEvent4 0, .reservedEvent8 0, .reservedEventC 0, .reservedEventE, .tWrite 0 [],
    .tRead 0, .tGetRx].map Instr.row

theorem row_mem_tableRows (i : Instr) : i.row ∈ tableRows := by
  cases i <;> simp [tableRows, Instr.row]

/-- No word is in both rows: the formats differ, or the patterns differ under the masks' common bits. -/
def TableRow.Apart (r q : TableRow) : Prop := r.port = q.port → r.pattern &&& q.mask ≠ q.pattern &&& r.mask

theorem TableRow.Apart.symm {r q : TableRow} (h : r.Apart q) : q.Apart r :=
  fun hport heq => h hport.symm heq.symm

theorem tableRows_pairwise_apart : tableRows.Pairwise TableRow.Apart := by
  unfold TableRow.Apart
  decide

theorem TableRow.Apart.not_admits {r q : TableRow} (h : r.Apart q) {x : Input}
    (hr : r.admits x = true) : q.admits x ≠ true := by
  intro hq
  obtain ⟨hrport, hrbits⟩ := (admits_iff _ _).1 hr
  obtain ⟨hqport, hqbits⟩ := (admits_iff _ _).1 hq
  refine h (hrport.symm.trans hqport) ?_
  rw [← hrbits, ← hqbits, Nat.land_assoc, Nat.land_assoc, Nat.land_comm r.mask]

/-- A word is in one row only. -/
theorem row_eq_of_admits {i j : Instr} {x : Input} (hi : i.row.admits x = true) (hj : j.row.admits x = true) :
    i.row = j.row := by
  by_contra hne
  have : Std.Symm TableRow.Apart := ⟨fun _ _ => TableRow.Apart.symm⟩
  exact (tableRows_pairwise_apart.forall (row_mem_tableRows i) (row_mem_tableRows j) hne).not_admits hi hj

/-- Settles O3: the decoded row admits the word, and the rows exclude each other. -/
theorem eachWordHasOneRow : Obligations.EachWordHasOneRow := by
  refine ⟨fun w i => ⟨fun h => ?cmd, fun h => ?_⟩, fun w i => ⟨fun h => ?evt, fun h => ?_⟩⟩
  case cmd => exact row_eq_of_admits h (decodeCmd_row_admits w)
  case evt => exact row_eq_of_admits h (decodeEvt_row_admits w)
  · rw [h]; exact decodeCmd_row_admits w
  · rw [h]; exact decodeEvt_row_admits w

/-! ### Written words -/

/-- Settles O4: the decoder evaluates on each word. -/
theorem writtenWordsDecode : Obligations.WrittenWordsDecode :=
  ⟨rfl, rfl, rfl, rfl, rfl, rfl, rfl, rfl, rfl, rfl, rfl, rfl, rfl, rfl⟩

/-! ### Reserved events -/

/-- An instruction of one of the five reserved rows (R85). -/
def IsReservedEvent (i : Instr) : Prop :=
  i = .reservedEvent0 ∨ (∃ k, i = .reservedEvent4 k) ∨ (∃ k, i = .reservedEvent8 k)
    ∨ (∃ k, i = .reservedEventC k) ∨ i = .reservedEventE

theorem exec_of_isReservedEvent {i : Instr} (h : IsReservedEvent i) (s : State) :
    exec i s = .next (s.withRefused (some .reservedEvent)) := by
  rcases h with rfl | ⟨k, rfl⟩ | ⟨k, rfl⟩ | ⟨k, rfl⟩ | rfl <;> rfl

/-- The reserved kinds 0x0 and 0x4 to 0xE decode to the reserved rows. -/
theorem isReservedEvent_decodeKind {kind : BitVec 4} (data : BitVec 8)
    (h : kind = 0x0 ∨ (0x4 ≤ kind.toNat ∧ kind.toNat ≤ 0xE)) : IsReservedEvent (decodeKind kind data) := by
  rcases h with rfl | ⟨hlo, hhi⟩
  · exact .inl rfl
  · by_cases hE : kind = 0xE
    · subst hE; exact .inr (.inr (.inr (.inr rfl)))
    · rw [decodeKind_of_range data hlo (by bv_omega)]
      split
      · exact .inr (.inl ⟨_, rfl⟩)
      · split
        · exact .inr (.inr (.inl ⟨_, rfl⟩))
        · exact .inr (.inr (.inr (.inl ⟨_, rfl⟩)))

/-- Settles O31: the reserved kinds decode to the reserved rows, whose meaning is the mark. -/
theorem reservedEventsAreRefused : Obligations.ReservedEventsAreRefused :=
  ⟨fun _ s h => exec_of_isReservedEvent (isReservedEvent_decodeKind _ h) s,
    fun _ s h => exec_of_isReservedEvent h s⟩

end Sys2Proof
end

section
/-! PROOFS. The host port (30_encoding.md R81, R82): every command answers one response word and nothing else
writes it; the desk queries answer their registers (43_facade.md R253 to R258). -/

namespace Sys2Proof.Machine

/-! ### The response word -/

theorem respWord_zeroBits (c : ResultCode) (v : BitVec 16) : (respWord c v).extractLsb' 16 8 = 0 := by
  unfold respWord
  rw [BitVec.extractLsb'_append_eq_of_le (by decide)]
  exact BitVec.extractLsb'_append_eq_right

theorem respWord_code (c : ResultCode) (v : BitVec 16) : (respWord c v).extractLsb' 24 8 = c.number := by
  unfold respWord
  rw [BitVec.extractLsb'_append_eq_of_le (by decide)]
  exact BitVec.extractLsb'_append_eq_left

/-- With OK the response word is its value. -/
theorem respWord_ok (v : BitVec 16) : respWord .ok v = v.setWidth 32 := by
  apply BitVec.eq_of_toNat_eq
  have h := v.isLt
  rw [respWord_toNat, BitVec.toNat_setWidth]
  show 0 * 2 ^ 24 + v.toNat = v.toNat % 2 ^ 32
  omega

/-! ### Every command answers -/

/-- The command ends in `respond`, after the writes that led to `u` (R81). -/
def Answers (s : State) (i : Instr) : Prop := ∃ c v u, exec i s = answer c v u

theorem answers_startDiscovery (s : State) : Answers s .startDiscovery := by
  rcases execStartDiscovery_cases s with ⟨-, h⟩ | ⟨-, -, h⟩ | ⟨-, -, h⟩ <;> exact ⟨_, _, _, h⟩

theorem answers_requestPosition (p : Pos) (s : State) : Answers s (.requestPosition p) := by
  show ∃ c v u, execRequestPosition p s = answer c v u
  unfold execRequestPosition
  split
  · exact ⟨_, _, _, rfl⟩
  · split <;> exact ⟨_, _, _, rfl⟩

theorem answers_requestCalibration (s : State) : Answers s .requestCalibration := by
  show ∃ c v u, execRequestCalibration s = answer c v u
  unfold execRequestCalibration
  split <;> exact ⟨_, _, _, rfl⟩

theorem answers_of_isCommand {i : Instr} (h : Claims.isCommand i) (s : State) : Answers s i := by
  cases i with
  | startDiscovery => exact answers_startDiscovery s
  | requestPosition p => exact answers_requestPosition p s
  | requestCalibration => exact answers_requestCalibration s
  | tick | txDone | rxByte | reset | reservedEvent0 | reservedEvent4 | reservedEvent8 | reservedEventC
  | reservedEventE | tWrite | tRead | tGetRx => cases h
  | _ => exact ⟨_, _, _, rfl⟩

/-! ### Nothing else writes the response -/

theorem OnlyTransport.resp {s t : State} (h : OnlyTransport s t) : t.resp = s.resp := by rw [h.rest]

theorem OnlyDiscovery.resp {s t : State} (h : OnlyDiscovery s t) : t.resp = s.resp := by rw [h.rest]

theorem OnlyDesk.resp {s t : State} (h : OnlyDesk s t) : t.resp = s.resp := by rw [h.rest]

theorem process_resp (u : Fin 2) (r : List Byte) (s : State) : (process u r s).resp = s.resp := by
  rcases process_cases u r s with h | ⟨-, -, -, h⟩ <;> (rw [h]; rfl)

theorem andThen_countTick_resp (f : Flow) : (f.andThen countTick).result.resp = f.result.resp := by
  rcases andThen_countTick_result f with h | h
  · rw [h]
  · rw [h]; rfl

theorem discoveryStep_resp (S : DMode) (s : State) : (discoveryStep S s).result.resp = s.resp := by
  have collected := (OnlyTransport.ofGetRx s).resp
  rcases discoveryStep_cases S s with
    ⟨-, h⟩ | ⟨hS, ⟨-, h⟩ | ⟨-, h⟩ | ⟨-, ⟨-, h⟩ | ⟨-, h⟩⟩⟩ <;> rw [h]
  · exact (OnlyDiscovery.ofStepBegin s).resp
  · exact (OnlyDiscovery.ofCountTick s).resp
  · rw [andThen_countTick_resp]; exact (OnlyTransport.ofWrite _ _ s).resp
  · rw [andThen_countTick_resp]; exact (OnlyTransport.ofRead _ s).resp
  · rcases evalState_cases hS (transportGetRx s).1 (transportGetRx s).2 with ⟨u, hu, ho, -⟩ | hf
    · rw [hu]; exact ho.resp.trans collected
    · rw [hf]; exact collected

theorem slotAction_resp (k : Nat) (m : OMode) (s : State) : (slotAction k m s).result.resp = s.resp := by
  have collected := (OnlyTransport.ofGetRx s).resp
  unfold slotAction
  split
  · exact (OnlyTransport.ofWrite _ _ (s.withDesk _)).resp
  · exact (OnlyTransport.ofRead _ s).resp
  · exact (OnlyTransport.ofRead _ _).resp.trans ((process_resp _ _ _).trans collected)
  · exact (process_resp _ _ _).trans collected
  · rfl
  · exact (OnlyDesk.ofStep m s).resp
  · exact (OnlyTransport.ofWrite _ _ s).resp
  · rfl
  · rfl

theorem operationStep_resp (m : OMode) (s : State) : (operationStep m s).result.resp = s.resp := by
  rcases operationStep_result m s with h | h <;> rw [h] <;> exact slotAction_resp _ m s

theorem tickBody_resp (s : State) : (tickBody s).result.resp = s.resp := by
  rcases tickBody_cases s with ⟨-, h⟩ | ⟨S, -, h⟩ | ⟨m, -, h⟩ <;> rw [h]
  · rfl
  · exact discoveryStep_resp S s
  · exact operationStep_resp m s

theorem TransportCall.resp {i : Instr} {s t : State} (h : TransportCall s t i) : t.resp = s.resp := by
  by_cases hi : i = .tGetRx
  · subst hi
    cases h with
    | getRx h => rw [h]; exact (OnlyTransport.ofGetRx s).resp
    | reserved h => rw [h]; rfl
  · exact (h.onlyTransport hi).resp

theorem exec_resp_of_not_isCommand {i : Instr} {s t : State} (hi : ¬ Claims.isCommand i)
    (h : exec i s = .next t) : t.resp = s.resp := by
  cases i with
  | tick => cases h; exact tickBody_resp s
  | reset => cases h; rfl
  | reservedEvent0 | reservedEvent4 | reservedEvent8 | reservedEventC | reservedEventE => cases h; rfl
  | txDone => exact (transportCall_txDone h).resp
  | rxByte b => cases h; exact (TransportCall.rxByte b rfl).resp
  | tWrite a p => cases h; exact (TransportCall.write a p rfl).resp
  | tRead a => cases h; exact (TransportCall.read a rfl).resp
  | tGetRx => cases h; exact (TransportCall.getRx rfl).resp
  | _ => exact absurd rfl hi

/-- Settles O21: a command ends in `respond`, and no other instruction writes RESP. -/
theorem everyCommandResponds : Obligations.EveryCommandResponds := by
  refine ⟨fun i s hi => ?_, fun i s t hi h => exec_resp_of_not_isCommand hi h⟩
  obtain ⟨c, v, u, h⟩ := answers_of_isCommand hi s
  refine ⟨_, _, h, rfl, respWord_zeroBits c v, ?_⟩
  rw [respWord_code]
  exact c.number_le

/-! ### The desk queries -/

theorem answer_ok (v : BitVec 16) (s : State) : answer .ok v s = .next (s.withResp (some (v.setWidth 32))) := by
  rw [answer, respond, respWord_ok]

/-- The busy flag as a response (R253). -/
theorem busyWord (b : Bool) :
    ((BitVec.ofBool b).setWidth 16).setWidth 32 = if b = true then (1 : RespWord) else 0 := by
  cases b <;> rfl

/-- The mode's code is R98's number. -/
theorem modeWord_eq (m : Mode) : (m.code.setWidth 16).setWidth 32 = Claims.modeWord m := by
  cases m with
  | idle => rfl
  | startup S => cases S <;> rfl
  | operation o => cases o <;> rfl

/-- The drift is the larger of the two positions less the smaller (R226). -/
theorem drift_toNat (s : State) : (drift s).toNat
    = max s.motor[0].pos.toNat s.motor[1].pos.toNat - min s.motor[0].pos.toNat s.motor[1].pos.toNat := by
  have h0 := s.motor[0].pos.isLt
  have h1 := s.motor[1].pos.isLt
  rw [drift, absDiff, BitVec.toNat_ofNat]
  omega

/-- Settles O26: each query answers OK with its register, which the response word holds zero-extended. -/
theorem deskQueryResults : Obligations.DeskQueryResults := by
  intro s
  refine ⟨?busy, ?mode, answer_ok _ s, answer_ok _ s, answer_ok _ s, drift s, answer_ok _ s, drift_toNat s⟩
  case busy => rw [← busyWord]; exact answer_ok _ s
  case mode => rw [← modeWord_eq]; exact answer_ok _ s

end Sys2Proof.Machine
end

section
/-! PROOFS. The protected identifier (40_transport.md R120, R121). -/

namespace Sys2Proof.Machine

theorem pid_addrBits (a : LinAddr) : (pid a).extractLsb' 0 6 = a := by
  apply BitVec.eq_of_getLsbD_eq
  intro i hi
  have h7 : i < 7 := by omega
  have h8 : i < 8 := by omega
  simp [pid, hi, h7, h8]

theorem pid_bit6 (a : LinAddr) : (pid a).getLsbD 6 = parity0 a := by
  simp [pid]

theorem pid_bit7 (a : LinAddr) : (pid a).getLsbD 7 = parity1 a := by
  simp [pid]

theorem pid_injective : Function.Injective pid := by
  intro a b h
  calc a
    _ = (pid a).extractLsb' 0 6 := (pid_addrBits a).symm
    _ = (pid b).extractLsb' 0 6 := by rw [h]
    _ = b := pid_addrBits b

/-- Settles O32, bit by bit; the address bits make it injective. -/
theorem protectedIdentifier : Obligations.ProtectedIdentifier :=
  ⟨fun a => ⟨pid_addrBits a, pid_bit6 a, pid_bit7 a⟩, fun _ _ h => pid_injective h⟩

end Sys2Proof.Machine
end

section
/-! PROOFS. Whole frames (30_encoding.md R88, R89, 40_transport.md R133): the pump puts the loaded bytes on
WIRE one for each TX_DONE, the receiver collects the bytes of an answer, and T_GETRX returns its payload.
`Pumping` and `Listening` are the invariants of the two loops. -/

namespace Sys2Proof.Machine

/-! ### Running from the input list -/

/-- A run goes on from where a shorter one ends. -/
theorem run_add (M : Host.Core) {m : Nat} {s u : M.State} (h : M.run m s = .next u) (n : Nat) :
    M.run (m + n) s = M.run n u := by
  induction m generalizing s with
  | zero =>
    obtain rfl : s = u := by simpa [Host.Core.run] using h
    rw [Nat.zero_add]
  | succ m ih =>
    rw [Nat.add_right_comm]
    simp only [Host.Core.run] at h ⊢
    cases hstep : M.step s with
    | next v => rw [hstep] at h; exact ih h
    | fault r => rw [hstep] at h; cases h
    | refused r => rw [hstep] at h; cases h

/-- The machine's run of `n` steps from `s` ends in `t`. -/
def RunsTo (n : Nat) (s t : State) : Prop := core.run n s = .next t

theorem RunsTo.refl (s : State) : RunsTo 0 s s := rfl

theorem RunsTo.trans {m n : Nat} {s u t : State} (h : RunsTo m s u) (k : RunsTo n u t) : RunsTo (m + n) s t :=
  (run_add core h n).trans k

theorem RunsTo.ofStep {s t : State} (h : step s = .next t) : RunsTo 1 s t := by
  have hcore : core.step s = .next t := h
  simp only [RunsTo, Host.Core.run, hcore]

/-- A clean state runs its oldest input's instruction. -/
theorem RunsTo.ofExec {s t : State} {x : Input} {rest : List Input} {i : Instr} (hclean : s.Clean)
    (hinput : s.input = x :: rest) (hdecode : decode x = .ok i)
    (hexec : exec i (s.withInput rest) = .next t) : RunsTo 1 s t :=
  .ofStep ((stepRunsTheDecodedInput s x rest i hclean hinput hdecode).trans hexec)

/-! ### Loaded bytes -/

/-- A loaded frame is read back byte by byte. -/
theorem frameByte_loadFrame {bytes : List Byte} (hlen : bytes.length ≤ 11) {t : Transport} {v : Vector Byte 11}
    (ht : t.txFrame = loadFrame bytes 0 v) {k : Nat} (hk : k < bytes.length) : frameByte t k = bytes[k] := by
  have hk11 : k < 11 := by omega
  rw [frameByte, ht, Vector.getElem?_eq_getElem hk11, loadFrame_getElem bytes 0 v (by omega) k hk11]
  simp [hk]

/-! ### The pump -/

/-- The pump has still to emit `bytes`, one for each TX_DONE (R128). -/
structure Pumping (bytes : List Byte) (s : State) : Prop where
  clean : s.Clean
  bus : s.t.busState = .sending ∨ (s.t.busState = .receiving ∧ s.t.rxEnable = false)
  inflight : s.t.txInflight = true
  len : s.t.txLen.toNat = s.t.txIdx.toNat + bytes.length
  frame : ∀ j, ∀ h : j < bytes.length, frameByte s.t (s.t.txIdx.toNat + j) = bytes[j]

theorem Pumping.withInput {bytes : List Byte} {s : State} (h : Pumping bytes s) (rest : List Input) :
    Pumping bytes (s.withInput rest) :=
  ⟨⟨h.clean.faults, h.clean.refused⟩, h.bus, h.inflight, h.len, h.frame⟩

/-- The state after the pump has emitted `bytes`. -/
def pumped (bytes : List Byte) (s : State) : State :=
  { s with
    t := { s.t with txIdx := s.t.txIdx + BitVec.ofNat 4 bytes.length, txInflight := true }
    wire := s.wire ++ bytes.map .byte }

theorem pumped_withInput (bytes : List Byte) (s : State) (rest : List Input) :
    (pumped bytes s).withInput rest = pumped bytes (s.withInput rest) := rfl

theorem Pumping.pumped_nil {s : State} (h : Pumping [] s) : pumped [] s = s := by
  have hidx : s.t.txIdx + BitVec.ofNat 4 0 = s.t.txIdx := BitVec.add_zero _
  simp only [pumped, List.length_nil, List.map_nil, List.append_nil, hidx, ← h.inflight]

theorem pumped_cons (b : Byte) (bs : List Byte) (s : State) :
    pumped bs (pumped [b] s) = pumped (b :: bs) s := by
  have hidx : s.t.txIdx + BitVec.ofNat 4 1 + BitVec.ofNat 4 bs.length
      = s.t.txIdx + BitVec.ofNat 4 (bs.length + 1) := by
    rw [BitVec.add_assoc, BitVec.ofNat_add_ofNat, Nat.add_comm]
  simp only [pumped, List.length_cons, List.length_nil, Nat.zero_add, List.map_cons, List.map_nil, hidx,
    List.append_assoc, List.singleton_append]

theorem exec_txDone_of_inflight {s : State} (h : s.t.txInflight = true) :
    exec .txDone s = .next (txDoneBody (s.withT { s.t with txInflight := false })).result :=
  if_pos h

theorem txDoneBody_of_pumping {s : State}
    (hbus : s.t.busState = .sending ∨ (s.t.busState = .receiving ∧ s.t.rxEnable = false))
    (hidx : s.t.txIdx < s.t.txLen) : txDoneBody s = pumpByte s := by
  rcases hbus with hb | ⟨hb, hrx⟩
  · simp [txDoneBody, hb, hidx]
  · simp [txDoneBody, hb, hrx, hidx]

theorem emit_of_free {s : State} (h : s.t.txInflight = false) (x : Symbol) :
    emit x s = .go ((s.withWire (s.wire ++ [x])).withT { s.t with txInflight := true }) := by
  rcases emit_cases x s with ⟨-, he⟩ | ⟨hinflight, -⟩
  · exact he
  · simp [h] at hinflight

theorem pumpByte_of_free {s : State} (h : s.t.txInflight = false) :
    pumpByte s = .go (pumped [frameByte s.t s.t.txIdx.toNat] s) :=
  emit_of_free (s := s.withT { s.t with txIdx := s.t.txIdx + 1 }) h _

theorem Pumping.idx_lt {b : Byte} {bs : List Byte} {s : State} (h : Pumping (b :: bs) s) :
    s.t.txIdx < s.t.txLen := by
  have hlen := h.len
  rw [List.length_cons] at hlen
  bv_omega

/-- One TX_DONE emits the next byte. -/
theorem Pumping.exec_txDone {b : Byte} {bs : List Byte} {s : State} (h : Pumping (b :: bs) s) :
    exec .txDone s = .next (pumped [b] s) := by
  have hbyte : frameByte s.t s.t.txIdx.toNat = b := h.frame 0 (by simp)
  have hpump : txDoneBody (s.withT { s.t with txInflight := false })
      = pumpByte (s.withT { s.t with txInflight := false }) := txDoneBody_of_pumping h.bus h.idx_lt
  rw [exec_txDone_of_inflight h.inflight, hpump, pumpByte_of_free rfl, ← hbyte]
  rfl

theorem Pumping.next {b : Byte} {bs : List Byte} {s : State} (h : Pumping (b :: bs) s) :
    Pumping bs (pumped [b] s) := by
  have hlen := h.len
  have hlt := h.idx_lt
  rw [List.length_cons] at hlen
  have hidx : (s.t.txIdx + 1#4).toNat = s.t.txIdx.toNat + 1 := by bv_omega
  refine ⟨⟨h.clean.faults, h.clean.refused⟩, h.bus, rfl, ?len, fun j hj => ?frame⟩
  case len =>
    show s.t.txLen.toNat = (s.t.txIdx + 1#4).toNat + bs.length
    omega
  case frame =>
    show frameByte s.t ((s.t.txIdx + 1#4).toNat + j) = bs[j]
    rw [hidx, Nat.add_assoc, Nat.add_comm 1]
    exact h.frame (j + 1) (by simpa using hj)

/-- TX_DONE's event word (R85). -/
theorem decode_txDone : decode (.evt 0x2000) = .ok .txDone := rfl

/-- As many TX_DONEs as bytes are left emit them all. -/
theorem Pumping.run {bytes : List Byte} {rest : List Input} {s : State} (h : Pumping bytes s)
    (hinput : s.input = List.replicate bytes.length (.evt 0x2000) ++ rest) :
    RunsTo bytes.length s (pumped bytes (s.withInput rest)) ∧ Pumping [] (pumped bytes (s.withInput rest)) := by
  induction bytes generalizing s with
  | nil =>
    obtain rfl : s.input = rest := hinput
    rw [State.withInput_self, h.pumped_nil]
    exact ⟨.refl s, h⟩
  | cons b bs ih =>
    have hlater := h.withInput (List.replicate bs.length (.evt 0x2000) ++ rest)
    have first := RunsTo.ofExec h.clean hinput decode_txDone hlater.exec_txDone
    obtain ⟨hrun, hdone⟩ := ih hlater.next rfl
    rw [pumped_withInput, State.withInput_withInput, pumped_cons] at hrun hdone
    rw [List.length_cons, Nat.add_comm]
    exact ⟨first.trans hrun, hdone⟩

theorem Pumping.not_idx_lt {s : State} (h : Pumping [] s) : ¬ s.t.txIdx < s.t.txLen := by
  have hlen := h.len
  rw [List.length_nil] at hlen
  bv_omega

/-- The TX_DONE after a write frame's last byte ends in Ready (R128). -/
theorem Pumping.exec_txDone_sending {s : State} (h : Pumping [] s) (hbus : s.t.busState = .sending) :
    exec .txDone s = .next (s.withT { s.t with txInflight := false, busState := .ready }) := by
  rw [exec_txDone_of_inflight h.inflight]
  simp [txDoneBody, hbus, h.not_idx_lt]

/-- The TX_DONE after a header's last byte opens the receiver (R128). -/
theorem Pumping.exec_txDone_receiving {s : State} (h : Pumping [] s) (hbus : s.t.busState = .receiving)
    (hrx : s.t.rxEnable = false) : exec .txDone s
      = .next (s.withT { s.t with txInflight := false, rxEnable := true, echoPending := true }) := by
  rw [exec_txDone_of_inflight h.inflight]
  simp [txDoneBody, hbus, hrx, h.not_idx_lt]

/-! ### A write frame -/

/-- The state after a BREAK has been emitted with the transport's registers at `v` (R124). -/
def breakSent (v : Transport) (s : State) : State :=
  { s with t := { v with txInflight := true }, wire := s.wire ++ [.brk] }

theorem emit_break {v : Transport} (h : v.txInflight = false) (s : State) :
    emit .brk (s.withT v) = .go (breakSent v s) := emit_of_free (s := s.withT v) h _

/-- In Ready with nothing in flight T_WRITE loads the frame and emits its BREAK (R125). -/
theorem exec_tWrite_of_ready {a : LinAddr} {p : List Byte} {s : State} (hmax : p.length ≤ s.cfg.maxPayload)
    (hready : s.t.busState = .ready) (hinflight : s.t.txInflight = false) (hp : p ≠ []) :
    exec (.tWrite a p) s = .next (breakSent (startWrite s.cfg a p s.t) s) := by
  show Host.Outcome.next (transportWrite a p s).result = _
  rcases transportWrite_cases a p s with ⟨hlong, -⟩ | ⟨-, hquiet, -⟩ | ⟨-, -, -, h⟩
  · omega
  · simp [hready, hp] at hquiet
  · rw [h, emit_break (v := startWrite s.cfg a p s.t) hinflight, Flow.result_go]

theorem writeFrame_length (c : Config) (a : LinAddr) (p : List Byte) :
    (writeFrame c a p).length = p.length + 3 := by
  simp [writeFrame]

/-- The frame's bytes for the values of R7's table. -/
theorem writeFrame_eq {c : Config} (h : c.tableValues = true) (a : LinAddr) (p : List Byte) :
    writeFrame c a p = Claims.frameBytes a p := by
  obtain ⟨hsync, hdiag, -⟩ := tableValues_fields h
  simp [writeFrame, Claims.frameBytes, writeSeed, hsync, hdiag]

theorem pumping_write {a : LinAddr} {p : List Byte} {s : State} (hclean : s.Clean) (hp : p.length ≤ 8) :
    Pumping (writeFrame s.cfg a p) (breakSent (startWrite s.cfg a p s.t) s) where
  clean := ⟨hclean.faults, hclean.refused⟩
  bus := .inl rfl
  inflight := rfl
  len := by
    show (BitVec.ofNat 4 (p.length + 3)).toNat = 0 + (writeFrame s.cfg a p).length
    rw [writeFrame_length, BitVec.toNat_ofNat]
    omega
  frame j hj := by
    have hlen : (writeFrame s.cfg a p).length ≤ 11 := by rw [writeFrame_length]; omega
    rw [show (breakSent (startWrite s.cfg a p s.t) s).t.txIdx.toNat + j = j from Nat.zero_add j]
    exact frameByte_loadFrame hlen rfl hj

/-- A traced T_WRITE starts the pump on its frame. -/
theorem runsTo_write {a : LinAddr} {p : List Byte} {rest : List Input} {s : State}
    (hcfg : s.cfg.tableValues = true) (hclean : s.Clean) (hready : s.t.busState = .ready)
    (hinflight : s.t.txInflight = false) (hp : p ≠ []) (hlen : p.length ≤ 8)
    (hinput : s.input = .uop 0x01 a p :: rest) :
    RunsTo 1 s (breakSent (startWrite s.cfg a p s.t) (s.withInput rest))
      ∧ Pumping (writeFrame s.cfg a p) (breakSent (startWrite s.cfg a p s.t) (s.withInput rest)) := by
  obtain ⟨-, -, -, -, -, -, -, -, -, -, -, -, hmax, -⟩ := tableValues_fields hcfg
  exact ⟨.ofExec hclean hinput rfl
      (exec_tWrite_of_ready (s := s.withInput rest) (hlen.trans_eq hmax.symm) hready hinflight hp),
    pumping_write (s := s.withInput rest) ⟨hclean.faults, hclean.refused⟩ hlen⟩

/-- Settles O40: T_WRITE emits the BREAK, the pump the frame's bytes, and the last TX_DONE ends in Ready. -/
theorem writeFrameReachesTheWire : Obligations.WriteFrameReachesTheWire := by
  intro a p s hcfg hclean hready hinflight hp hlen hinput
  have hframe := writeFrame_length s.cfg a p
  have hevents : List.replicate (p.length + 4) (Input.evt 0x2000)
      = List.replicate (writeFrame s.cfg a p).length (.evt 0x2000) ++ [.evt 0x2000] := by
    rw [hframe, ← List.replicate_succ']
  obtain ⟨sent, loaded⟩ := runsTo_write hcfg hclean hready hinflight hp hlen hinput
  obtain ⟨emitted, done⟩ := loaded.run hevents
  have closed := RunsTo.ofExec done.clean rfl decode_txDone ((done.withInput []).exec_txDone_sending rfl)
  have run := (sent.trans emitted).trans closed
  have hsteps : 1 + (writeFrame s.cfg a p).length + 1 = p.length + 5 := by omega
  rw [hsteps] at run
  refine ⟨_, run, ?_, rfl, rfl, ⟨hclean.faults, hclean.refused⟩, rfl⟩
  rw [← writeFrame_eq hcfg]
  simp [pumped, breakSent]

/-! ### A read header -/

/-- In Ready with nothing in flight T_READ loads the header and emits its BREAK (R126). -/
theorem exec_tRead_of_ready {a : LinAddr} {s : State} (hready : s.t.busState = .ready)
    (hinflight : s.t.txInflight = false) :
    exec (.tRead a) s = .next (breakSent (startRead s.cfg a s.t) s) := by
  show Host.Outcome.next (transportRead a s).result = _
  rcases transportRead_cases a s with ⟨hquiet, -⟩ | ⟨-, h⟩
  · exact absurd hready hquiet
  · rw [h, emit_break (v := startRead s.cfg a s.t) hinflight, Flow.result_go]

theorem pumping_read {a : LinAddr} {s : State} (hclean : s.Clean) :
    Pumping (readHeader s.cfg a) (breakSent (startRead s.cfg a s.t) s) where
  clean := ⟨hclean.faults, hclean.refused⟩
  bus := .inr ⟨rfl, rfl⟩
  inflight := rfl
  len := rfl
  frame j hj := by
    have hlen : (readHeader s.cfg a).length ≤ 11 := by simp [readHeader]
    rw [show (breakSent (startRead s.cfg a s.t) s).t.txIdx.toNat + j = j from Nat.zero_add j]
    exact frameByte_loadFrame hlen rfl hj

/-- A traced T_READ starts the pump on its header. -/
theorem runsTo_read {a : LinAddr} {rest : List Input} {s : State} (hclean : s.Clean)
    (hready : s.t.busState = .ready) (hinflight : s.t.txInflight = false)
    (hinput : s.input = .uop 0x02 a [] :: rest) :
    RunsTo 1 s (breakSent (startRead s.cfg a s.t) (s.withInput rest))
      ∧ Pumping (readHeader s.cfg a) (breakSent (startRead s.cfg a s.t) (s.withInput rest)) :=
  ⟨.ofExec hclean hinput rfl (exec_tRead_of_ready (s := s.withInput rest) hready hinflight),
    pumping_read (s := s.withInput rest) ⟨hclean.faults, hclean.refused⟩⟩

/-! ### Listening -/

/-- The receiver is open after the echo of `p`, and holds the bytes `heard`; `wire` is what was sent. -/
structure Listening (p : Byte) (wire : List Symbol) (heard : List Byte) (s : State) : Prop where
  cfg : s.cfg.tableValues = true
  clean : s.Clean
  bus : s.t.busState = .receiving
  rxEnable : s.t.rxEnable = true
  echo : s.t.echoPending = false
  inflight : s.t.txInflight = false
  pid : s.t.activePid = p
  count : s.t.rxCount.toNat = heard.length
  buffer : s.t.rxBuf.toList.take heard.length = heard
  wire : s.wire = wire

theorem Listening.withInput {p : Byte} {wire : List Symbol} {heard : List Byte} {s : State}
    (h : Listening p wire heard s) (rest : List Input) : Listening p wire heard (s.withInput rest) :=
  ⟨h.cfg, ⟨h.clean.faults, h.clean.refused⟩, h.bus, h.rxEnable, h.echo, h.inflight, h.pid, h.count, h.buffer,
    h.wire⟩

theorem decode_rxByte (b : Byte) : decode (encode (.rxByte b)) = .ok (.rxByte b) := decodeInvertsEncode _

/-- The state after a byte has been appended (R129). -/
def appended (b : Byte) (s : State) : State :=
  s.withT { s.t with
    rxBuf := s.t.rxBuf.setIfInBounds s.t.rxCount.toNat b
    rxCount := s.t.rxCount + 1 }

theorem Listening.exec_rxByte {p : Byte} {wire : List Symbol} {heard : List Byte} {s : State}
    (h : Listening p wire heard s) (hroom : heard.length < 9) (b : Byte) :
    exec (.rxByte b) s = .next (appended b s) := by
  obtain ⟨-, -, -, -, -, -, -, -, -, -, -, -, -, hcap, -⟩ := tableValues_fields h.cfg
  have hcount : s.t.rxCount.toNat ≠ s.cfg.rxCap := by rw [h.count, hcap]; omega
  show Host.Outcome.next (receiveByte b s).result = _
  rw [receiveByte, if_neg (by simp [h.bus, h.rxEnable]), if_neg (by simp [h.echo]), if_neg hcount]
  rfl

theorem Listening.next {p : Byte} {wire : List Symbol} {heard : List Byte} {s : State}
    (h : Listening p wire heard s) (hroom : heard.length < 9) (b : Byte) :
    Listening p wire (heard ++ [b]) (appended b s) := by
  have hcount := h.count
  refine ⟨h.cfg, ⟨h.clean.faults, h.clean.refused⟩, h.bus, h.rxEnable, h.echo, h.inflight, h.pid, ?count,
    ?buffer, h.wire⟩
  case count =>
    show (s.t.rxCount + 1).toNat = (heard ++ [b]).length
    rw [List.length_append, List.length_singleton]
    bv_omega
  case buffer =>
    show (s.t.rxBuf.setIfInBounds s.t.rxCount.toNat b).toList.take (heard ++ [b]).length = heard ++ [b]
    have hlt : heard.length < s.t.rxBuf.toList.length := by simpa using hroom
    rw [hcount, List.length_append, List.length_singleton, Vector.toList_setIfInBounds, List.take_add_one,
      List.take_set_of_le (le_refl _), h.buffer, List.getElem?_set_self hlt]
    rfl

/-- The bytes of an answer are appended one by one. -/
theorem Listening.run {p : Byte} {wire : List Symbol} {heard : List Byte} {rest : List Input} (bs : List Byte)
    {s : State} (h : Listening p wire heard s) (hroom : heard.length + bs.length ≤ 9)
    (hinput : s.input = (bs.map fun b => encode (.rxByte b)) ++ rest) :
    ∃ t, RunsTo bs.length s t ∧ Listening p wire (heard ++ bs) t ∧ t.input = rest := by
  induction bs generalizing heard s with
  | nil => exact ⟨s, .refl s, by rwa [List.append_nil], hinput⟩
  | cons b bs ih =>
    rw [List.length_cons] at hroom
    have hlater := h.withInput ((bs.map fun b => encode (.rxByte b)) ++ rest)
    have first := RunsTo.ofExec h.clean hinput (decode_rxByte b) (hlater.exec_rxByte (by omega) b)
    obtain ⟨t, hrun, hheard, hleft⟩ := ih (hlater.next (by omega) b)
      (by rw [List.length_append, List.length_singleton]; omega) rfl
    rw [List.append_assoc, List.singleton_append] at hheard
    rw [List.length_cons, Nat.add_comm]
    exact ⟨t, first.trans hrun, hheard, hleft⟩

/-- The echo of the PID ends the wait for it and is not kept (R129). -/
theorem RunsTo.ofEcho {b : Byte} {rest : List Input} {s : State} (hclean : s.Clean)
    (hinput : s.input = encode (.rxByte b) :: rest) (hbus : s.t.busState = .receiving)
    (hrx : s.t.rxEnable = true) (hecho : s.t.echoPending = true) (hb : b = s.t.activePid) :
    RunsTo 1 s ((s.withInput rest).withT { s.t with echoPending := false }) := by
  refine .ofExec hclean hinput (decode_rxByte b) ?_
  show Host.Outcome.next (receiveByte b (s.withInput rest)).result = _
  rw [receiveByte, if_neg (by simp [hbus, hrx]), if_pos ⟨hecho, hb⟩]
  rfl

/-- T_READ, the header's TX_DONEs and the echo leave the receiver open and empty (R126, R128, R129). -/
theorem listening_of_read {a : LinAddr} {s : State} {rest : List Input} (hcfg : s.cfg.tableValues = true)
    (hclean : s.Clean) (hready : s.t.busState = .ready) (hinflight : s.t.txInflight = false)
    (hcount : s.t.rxCount = 0)
    (hinput : s.input = .uop 0x02 a [] :: .evt 0x2000 :: .evt 0x2000 :: .evt 0x2000
      :: encode (.rxByte (pid a)) :: rest) :
    ∃ t, RunsTo 5 s t ∧ Listening (pid a) (s.wire ++ [.brk, .byte 0x55, .byte (pid a)]) [] t
      ∧ t.input = rest := by
  obtain ⟨hsync, -⟩ := tableValues_fields hcfg
  obtain ⟨sent, loaded⟩ := runsTo_read hclean hready hinflight hinput
  obtain ⟨emitted, done⟩ := loaded.run (rest := .evt 0x2000 :: encode (.rxByte (pid a)) :: rest) rfl
  have opened := RunsTo.ofExec done.clean rfl decode_txDone
    ((done.withInput (encode (.rxByte (pid a)) :: rest)).exec_txDone_receiving rfl rfl)
  have asked := (sent.trans emitted).trans opened
  refine ⟨_, asked.trans (.ofEcho ⟨hclean.faults, hclean.refused⟩ rfl rfl rfl rfl rfl), ?_, rfl⟩
  refine ⟨hcfg, ⟨hclean.faults, hclean.refused⟩, rfl, rfl, rfl, rfl, rfl, ?count, rfl, ?wire⟩
  case count => exact congrArg BitVec.toNat hcount
  case wire => simp [pumped, breakSent, readHeader, hsync]

/-! ### The answer -/

/-- The receive checksum is classic for the address of R7's diagnostic response only (R127). -/
theorem readSeed_pid {c : Config} (h : c.tableValues = true) (a : LinAddr) :
    readSeed c (pid a) = if a = 0x3D then 0 else pid a := by
  obtain ⟨-, -, hdiag, -⟩ := tableValues_fields h
  simp only [readSeed, hdiag, pid_injective.eq_iff]

/-- The bytes before a valid checksum are the payload (R127). -/
theorem receivedPayload_of_checksum {c : Config} {t : Transport} {r : List Byte} (hr : r ≠ [])
    (hcount : t.rxCount.toNat = r.length + 1)
    (hbuffer : t.rxBuf.toList.take (r.length + 1) = r ++ [checksum (readSeed c t.activePid) r]) :
    receivedPayload c t = r := by
  have hpos := List.length_pos_iff.2 hr
  have hbody : t.rxBuf.toList.take r.length = r := by
    have h := congrArg (List.take r.length) hbuffer
    rwa [List.take_take, Nat.min_eq_left (Nat.le_succ _), List.take_left] at h
  have hlast : t.rxBuf[r.length]? = some (checksum (readSeed c t.activePid) r) := by
    have h := congrArg (·[r.length]?) hbuffer
    simpa [List.getElem?_take] using h
  simp only [receivedPayload, hcount, Nat.add_sub_cancel, hbody]
  rw [if_pos (by omega), if_pos hlast]

theorem Listening.exec_tGetRx {a : LinAddr} {wire : List Symbol} {r : List Byte} {ck : Byte} {s : State}
    (hr : r ≠ []) (hck : checksum (if a = 0x3D then 0 else Machine.pid a) r = ck)
    (h : Listening (Machine.pid a) wire (r ++ [ck]) s) :
    exec .tGetRx s = .next ((s.withT (endReception s.t)).withUopResult (some r)) := by
  have hseed : readSeed s.cfg s.t.activePid = if a = 0x3D then 0 else Machine.pid a := by
    rw [h.pid, readSeed_pid h.cfg]
  have hcount := h.count
  have hbuffer := h.buffer
  rw [List.length_append, List.length_singleton] at hcount hbuffer
  rw [← hck, ← hseed] at hbuffer
  have hpayload := receivedPayload_of_checksum hr hcount hbuffer
  show Host.Outcome.next ((transportGetRx s).2.withUopResult (some (transportGetRx s).1)) = _
  rcases transportGetRx_cases s with ⟨hidle, -⟩ | ⟨-, hg⟩
  · simp [h.bus] at hidle
  · rw [hg, hpayload]

/-- Settles O41: T_READ and the pump send the header, the echo is dropped, the answer is collected, and its
checksum is the one T_GETRX expects. -/
theorem responseRoundTrip : Obligations.ResponseRoundTrip := by
  intro a r s hcfg hclean hready hinflight hcount hr hlen hinput
  generalize hck : checksum (if a = 0x3D then 0 else pid a) r = ck at hinput
  have hanswer : (r ++ [ck]).length = r.length + 1 := List.length_append
  obtain ⟨t, asked, hopen, hleft⟩ := listening_of_read
    (rest := ((r ++ [ck]).map fun b => encode (.rxByte b)) ++ [Input.uop 0x03 0 []])
    hcfg hclean hready hinflight hcount hinput
  obtain ⟨u, answered, hheard, hlast⟩ := hopen.run (r ++ [ck]) (by rw [hanswer, List.length_nil]; omega) hleft
  have taken := RunsTo.ofExec hheard.clean hlast rfl ((hheard.withInput []).exec_tGetRx hr hck)
  have run := (asked.trans answered).trans taken
  have hsteps : 5 + (r ++ [ck]).length + 1 = r.length + 7 := by omega
  rw [hsteps] at run
  exact ⟨_, run, rfl, hheard.wire, rfl, hheard.inflight, ⟨hheard.clean.faults, hheard.clean.refused⟩, rfl⟩

end Sys2Proof.Machine
end

section
/-! PROOFS. The LIN sum and checksum (40_transport.md R122, R123): one step of the sum is addition modulo 255
that keeps 0 apart from 255, so the sum is too, and two seeds that differ modulo 255 never agree. -/

namespace Sys2Proof.Machine

/-! ### The sum -/

theorem linAdd_mod (s x : Byte) : (linAdd s x).toNat % 255 = (s.toNat + x.toNat) % 255 := by
  rw [linAdd_toNat]
  split <;> omega

/-- A carry is folded back to at least 1, so a step gives 0 only without one (R122). -/
theorem linAdd_eq_zero {s x : Byte} : linAdd s x = 0 ↔ s = 0 ∧ x = 0 := by
  have hsum := linAdd_toNat s x
  simp only [← BitVec.toNat_inj, BitVec.ofNat_eq_ofNat, BitVec.toNat_zero]
  split at hsum <;> omega

theorem linSum_mod (seed : Byte) (bs : List Byte) :
    (linSum seed bs).toNat % 255 = (seed.toNat + (bs.map (·.toNat)).sum) % 255 := by
  induction bs generalizing seed with
  | nil => rfl
  | cons x xs ih =>
    have hstep := linAdd_mod seed x
    calc (linSum (linAdd seed x) xs).toNat % 255
      _ = ((linAdd seed x).toNat + (xs.map (·.toNat)).sum) % 255 := ih _
      _ = (seed.toNat + (x.toNat + (xs.map (·.toNat)).sum)) % 255 := by omega

theorem linSum_eq_zero {seed : Byte} {bs : List Byte} : linSum seed bs = 0 ↔ seed = 0 ∧ ∀ b ∈ bs, b = 0 := by
  induction bs generalizing seed with
  | nil => simp [linSum]
  | cons x xs ih => rw [linSum, ih, linAdd_eq_zero, List.forall_mem_cons, and_assoc]

/-- Settles O33, by induction on the bytes. -/
theorem linSumIsModulo255 : Obligations.LinSumIsModulo255 :=
  fun seed bs => ⟨linSum_mod seed bs, linSum_eq_zero⟩

/-! ### The checksum -/

theorem checksum_toNat (seed : Byte) (bs : List Byte) :
    (checksum seed bs).toNat = 255 - (linSum seed bs).toNat := by
  rw [checksum]
  bv_omega

/-- A sum and its complement add up to 255 without a carry (R123). -/
theorem linSum_append_checksum (seed : Byte) (bs : List Byte) :
    linSum seed (bs ++ [checksum seed bs]) = 0xFF := by
  have hbyte := (linSum seed bs).isLt
  have hck := checksum_toNat seed bs
  have hlast := linAdd_toNat (linSum seed bs) (checksum seed bs)
  rw [if_neg (by omega)] at hlast
  calc linSum seed (bs ++ [checksum seed bs])
    _ = linAdd (linSum seed bs) (checksum seed bs) := linSum_append seed bs _
    _ = 0xFF := by bv_omega

/-- Checksums of the same bytes agree only for seeds that agree modulo 255. -/
theorem seed_mod_eq_of_checksum_eq {seed seed' : Byte} {bs : List Byte}
    (h : checksum seed bs = checksum seed' bs) : seed.toNat % 255 = seed'.toNat % 255 := by
  have hck := congrArg BitVec.toNat h
  rw [checksum_toNat, checksum_toNat] at hck
  have hmod := linSum_mod seed bs
  have hmod' := linSum_mod seed' bs
  omega

/-- The parity bits keep a protected identifier away from 0 and from 255 (R120, R121). -/
theorem pid_mod_ne_zero (a : LinAddr) : (pid a).toNat % 255 ≠ 0 := by
  intro hmod
  have haddr := pid_addrBits a
  have hends : pid a = 0 ∨ pid a = 0xFF := by bv_omega
  rcases hends with h | h
  · obtain rfl : a = 0 := by rw [← haddr, h]; rfl
    exact absurd h (by decide)
  · obtain rfl : a = 0x3F := by rw [← haddr, h]; rfl
    exact absurd h (by decide)

/-- Settles O34: the classic seed 0 and the enhanced seed `pid a` differ modulo 255. -/
theorem checksumValidates : Obligations.ChecksumValidates :=
  ⟨fun seed bs => ⟨checksum_toNat seed bs, linSum_append_checksum seed bs⟩,
    fun a _ h => pid_mod_ne_zero a (seed_mod_eq_of_checksum_eq h).symm⟩

end Sys2Proof.Machine
end

section
/-! PROOFS. Each transport operation's result, case by case (40_transport.md R125 to R129). One lemma for
each way an operation can go, under the conditions the rule gives it; the statements put them together. -/

namespace Sys2Proof.Machine

/-! ### Loading a frame -/

theorem loaded_loadFrame {bytes : List Byte} (h : bytes.length ≤ 11) (v : Vector Byte 11) :
    Claims.Loaded bytes v (loadFrame bytes 0 v) := by
  intro k hk
  rw [loadFrame_getElem bytes 0 v (by omega) k hk]
  rfl

theorem loaded_startWrite {c : Config} (hcfg : c.tableValues = true) (a : LinAddr) {p : List Byte}
    (hp : p.length ≤ 8) (t : Transport) :
    Claims.Loaded (Claims.frameBytes a p) t.txFrame (startWrite c a p t).txFrame := by
  rw [← writeFrame_eq hcfg]
  exact loaded_loadFrame (by rw [writeFrame_length]; omega) _

theorem loaded_startRead {c : Config} (hcfg : c.tableValues = true) (a : LinAddr) (t : Transport) :
    Claims.Loaded [0x55, pid a] t.txFrame (startRead c a t).txFrame := by
  obtain ⟨hsync, -⟩ := tableValues_fields hcfg
  rw [← hsync]
  exact loaded_loadFrame (bytes := readHeader c a) (by simp [readHeader]) _

/-- A BREAK while a symbol is in flight is an overrun, and the registers written before it stand (R124, R295). -/
theorem emit_break_of_inflight {v : Transport} {s : State} (h : v.txInflight = true)
    (hnew : .txOverrun ∉ s.faults) :
    emit .brk (s.withT v) = .stop ((s.withT v).withFaults (s.faults ++ [.txOverrun])) := by
  rcases emit_cases .brk (s.withT v) with ⟨hfree, -⟩ | ⟨-, he⟩
  · simp [h] at hfree
  · rw [he, raise_of_notMem (s := s.withT v) hnew, State.withT_faults]

/-! ### T_WRITE -/

theorem exec_tWrite (a : LinAddr) (p : List Byte) (s : State) :
    exec (.tWrite a p) s = .next (transportWrite a p s).result := rfl

theorem exec_tWrite_of_long {a : LinAddr} {p : List Byte} {s : State} (h : s.cfg.maxPayload < p.length) :
    exec (.tWrite a p) s = .next (s.withRefused (some .writeTooLong)) := by
  rw [exec_tWrite, transportWrite, if_pos h, refuse_result]

theorem exec_tWrite_of_quiet {a : LinAddr} {p : List Byte} {s : State} (hmax : p.length ≤ s.cfg.maxPayload)
    (h : s.t.busState ≠ .ready ∨ p = []) : exec (.tWrite a p) s = .next s := by
  rw [exec_tWrite, transportWrite, if_neg (by omega), if_pos h, Flow.result_go]

theorem exec_tWrite_of_inflight {a : LinAddr} {p : List Byte} {s : State} (hmax : p.length ≤ s.cfg.maxPayload)
    (hready : s.t.busState = .ready) (hp : p ≠ []) (hinflight : s.t.txInflight = true)
    (hnew : .txOverrun ∉ s.faults) :
    exec (.tWrite a p) s
      = .next ((s.withT (startWrite s.cfg a p s.t)).withFaults (s.faults ++ [.txOverrun])) := by
  rw [exec_tWrite, transportWrite, if_neg (by omega), if_neg (by simp [hready, hp]),
    emit_break_of_inflight (v := startWrite s.cfg a p s.t) hinflight hnew, Flow.result_stop]

/-- Settles O35, case by case; the frame is the one `startWrite` loads. -/
theorem transportWriteResult : Obligations.TransportWriteResult := by
  intro a p s hcfg
  obtain ⟨-, -, -, -, -, -, -, -, -, -, -, -, hmax, -⟩ := tableValues_fields hcfg
  refine ⟨fun hlong => exec_tWrite_of_long (by omega),
    fun hlen hquiet => exec_tWrite_of_quiet (by omega) hquiet, fun hlen hready hp => ?started⟩
  case started =>
    exact ⟨_, loaded_startWrite hcfg a hlen s.t,
      fun hfree => exec_tWrite_of_ready (by omega) hready hfree hp,
      fun hinflight hnew => exec_tWrite_of_inflight (by omega) hready hp hinflight hnew⟩

/-! ### T_READ -/

theorem exec_tRead (a : LinAddr) (s : State) : exec (.tRead a) s = .next (transportRead a s).result := rfl

theorem exec_tRead_of_quiet {a : LinAddr} {s : State} (h : s.t.busState ≠ .ready) :
    exec (.tRead a) s = .next s := by
  rw [exec_tRead, transportRead, if_pos h, Flow.result_go]

theorem exec_tRead_of_inflight {a : LinAddr} {s : State} (hready : s.t.busState = .ready)
    (hinflight : s.t.txInflight = true) (hnew : .txOverrun ∉ s.faults) :
    exec (.tRead a) s = .next ((s.withT (startRead s.cfg a s.t)).withFaults (s.faults ++ [.txOverrun])) := by
  rw [exec_tRead, transportRead, if_neg (by simp [hready]),
    emit_break_of_inflight (v := startRead s.cfg a s.t) hinflight hnew, Flow.result_stop]

/-- Settles O36, case by case; the frame is the one `startRead` loads. -/
theorem transportReadResult : Obligations.TransportReadResult := fun a s hcfg =>
  ⟨exec_tRead_of_quiet, fun hready => ⟨_, loaded_startRead hcfg a s.t, exec_tRead_of_ready hready,
    exec_tRead_of_inflight hready⟩⟩

/-! ### T_GETRX -/

theorem exec_tGetRx (s : State) :
    exec .tGetRx s = .next ((transportGetRx s).2.withUopResult (some (transportGetRx s).1)) := rfl

theorem exec_tGetRx_of_idle {s : State} (h : s.t.busState = .idle) :
    exec .tGetRx s = .next (s.withUopResult (some [])) := by
  rw [exec_tGetRx, transportGetRx, if_pos h]

theorem exec_tGetRx_of_not_idle {s : State} (h : s.t.busState ≠ .idle) : exec .tGetRx s
    = .next ((s.withT (endReception s.t)).withUopResult (some (receivedPayload s.cfg s.t))) := by
  rw [exec_tGetRx, transportGetRx, if_neg h]

/-- The receive checksum is classic for the identifier 0x7D, the PID of R7's diagnostic response (R127). -/
theorem readSeed_eq {c : Config} (h : c.tableValues = true) (activePid : Byte) :
    readSeed c activePid = if activePid = 0x7D then 0 else activePid := by
  obtain ⟨-, -, hdiag, -⟩ := tableValues_fields h
  have hpid : pid 0x3D = 0x7D := by decide
  rw [readSeed, hdiag, hpid]

/-- A checksum alone, or nothing at all, is no response (R127). -/
theorem receivedPayload_of_short {c : Config} {t : Transport} (h : t.rxCount.toNat < 2) :
    receivedPayload c t = [] :=
  if_neg (by omega)

/-- With `n + 1` bytes received, the first `n` are the payload when the last one is their checksum (R127). -/
theorem receivedPayload_of_count {c : Config} {t : Transport} {n : Nat} (hn : n < 9) (hpos : 1 ≤ n)
    (hcount : t.rxCount.toNat = n + 1) : receivedPayload c t
      = if t.rxBuf[n] = checksum (readSeed c t.activePid) (t.rxBuf.toList.take n) then t.rxBuf.toList.take n
        else [] := by
  simp only [receivedPayload, hcount, Nat.add_sub_cancel, Vector.getElem?_eq_getElem hn, Option.some.injEq]
  exact if_pos (by omega)

/-- Settles O37: the result is `receivedPayload`, by the number of bytes received. -/
theorem transportGetRxResult : Obligations.TransportGetRxResult := by
  intro s hcfg _
  refine ⟨exec_tGetRx_of_idle, fun hbus => ⟨receivedPayload s.cfg s.t, exec_tGetRx_of_not_idle hbus,
    receivedPayload_of_short, fun n hn hpos hcount => ?_⟩⟩
  rw [receivedPayload_of_count hn hpos hcount, readSeed_eq hcfg]
  exact ⟨fun hvalid => if_pos hvalid, fun hinvalid => if_neg hinvalid⟩

/-! ### TX_DONE -/

/-- TX_DONE clears the symbol in flight before its body runs. -/
theorem exec_txDone_of_body {s u : State} (hinflight : s.t.txInflight = true)
    (h : txDoneBody (s.withT { s.t with txInflight := false }) = .go u) : exec .txDone s = .next u := by
  rw [exec_txDone_of_inflight hinflight, h, Flow.result_go]

/-- The pump emits byte `T.tx_idx`, which is in flight then (R128). -/
theorem exec_txDone_of_pumping {s : State} {k : Nat} (hk : k < 11) (hinflight : s.t.txInflight = true)
    (hidx : s.t.txIdx.toNat = k) (hlen : k < s.t.txLen.toNat)
    (hbus : s.t.busState = .sending ∨ (s.t.busState = .receiving ∧ s.t.rxEnable = false)) :
    exec .txDone s = .next (pumped [s.t.txFrame[k]] s) := by
  have hlt : s.t.txIdx < s.t.txLen := by bv_omega
  have hbyte : frameByte s.t k = s.t.txFrame[k] := by
    rw [frameByte, Vector.getElem?_eq_getElem hk, Option.getD_some]
  have hpump : txDoneBody (s.withT { s.t with txInflight := false })
      = pumpByte (s.withT { s.t with txInflight := false }) := txDoneBody_of_pumping hbus hlt
  refine exec_txDone_of_body hinflight ?_
  rw [hpump, pumpByte_of_free rfl, ← hbyte, ← hidx]
  rfl

theorem pumped_singleton {s : State} {k : Nat} (hinflight : s.t.txInflight = true)
    (hidx : s.t.txIdx.toNat = k) (b : Byte) : pumped [b] s
      = { s with t := { s.t with txIdx := BitVec.ofNat 4 (k + 1) }, wire := s.wire ++ [.byte b] } := by
  have hnext : s.t.txIdx + 1#4 = BitVec.ofNat 4 (k + 1) := by bv_omega
  simp only [pumped, List.length_singleton, List.map_singleton, hnext, ← hinflight]

/-- Settles O38, by what the bus does and whether bytes of the frame are left. -/
theorem txDoneResult : Obligations.TxDoneResult := by
  intro s hinflight
  have hdone : s.t.txLen.toNat ≤ s.t.txIdx.toNat → ¬ s.t.txIdx < s.t.txLen := by bv_omega
  refine ⟨fun k hk hidx hlen hbus => ?pump, fun hend hbus => exec_txDone_of_body hinflight ?closed,
    fun hend hbus hrx => exec_txDone_of_body hinflight ?opened,
    fun hquiet => exec_txDone_of_body hinflight ?quiet⟩
  case pump => rw [exec_txDone_of_pumping hk hinflight hidx hlen hbus, pumped_singleton hinflight hidx]
  case closed => simp [txDoneBody, hbus, hdone hend, State.withT]
  case opened => simp [txDoneBody, hbus, hrx, hdone hend, State.withT]
  case quiet =>
    rcases hquiet with hb | hb | ⟨hb, hrx⟩
    · simp [txDoneBody, hb, State.withT]
    · simp [txDoneBody, hb, State.withT]
    · simp [txDoneBody, hb, hrx, State.withT]

/-! ### RX_BYTE -/

theorem exec_rxByte (b : Byte) (s : State) : exec (.rxByte b) s = .next (receiveByte b s).result := rfl

theorem exec_rxByte_of_deaf {b : Byte} {s : State} (h : s.t.busState ≠ .receiving ∨ s.t.rxEnable = false) :
    exec (.rxByte b) s = .next s := by
  rw [exec_rxByte, receiveByte, if_pos h, Flow.result_go]

theorem exec_rxByte_of_echo {b : Byte} {s : State} (hbus : s.t.busState = .receiving)
    (hrx : s.t.rxEnable = true) (hecho : s.t.echoPending = true) (hb : b = s.t.activePid) :
    exec (.rxByte b) s = .next (s.withT { s.t with echoPending := false }) := by
  rw [exec_rxByte, receiveByte, if_neg (by simp [hbus, hrx]), if_pos ⟨hecho, hb⟩, Flow.result_go]

/-- A byte that is no awaited echo overflows a full buffer, else it is appended (R129). -/
theorem receiveByte_of_answer {b : Byte} {s : State} (hbus : s.t.busState = .receiving)
    (hrx : s.t.rxEnable = true) (hb : s.t.echoPending = false ∨ b ≠ s.t.activePid) : receiveByte b s
      = if s.t.rxCount.toNat = s.cfg.rxCap then raise .rxOverflow s else .go (appended b s) := by
  have hecho : ¬ (s.t.echoPending = true ∧ b = s.t.activePid) := by
    rintro ⟨hpending, hpid⟩
    rcases hb with h | h
    · simp [hpending] at h
    · exact h hpid
  rw [receiveByte, if_neg (by simp [hbus, hrx]), if_neg hecho]
  rfl

theorem appended_of_count {s : State} {k : Nat} (hk : k < 9) (hcount : s.t.rxCount.toNat = k) (b : Byte) :
    appended b s = { s with
      t := { s.t with rxBuf := s.t.rxBuf.set k b hk, rxCount := BitVec.ofNat 4 (k + 1) } } := by
  have hnext : s.t.rxCount + 1 = BitVec.ofNat 4 (k + 1) := by bv_omega
  have hbuf : s.t.rxBuf.setIfInBounds k b = s.t.rxBuf.set k b hk := by
    ext j hj
    rw [Vector.getElem_setIfInBounds, Vector.getElem_set]
  rw [appended, hcount, hnext, hbuf]
  rfl

/-- Settles O39, case by case, a full buffer being one of nine bytes. -/
theorem rxByteResult : Obligations.RxByteResult := by
  intro b s hcfg
  obtain ⟨-, -, -, -, -, -, -, -, -, -, -, -, -, hcap, -⟩ := tableValues_fields hcfg
  refine ⟨exec_rxByte_of_deaf, fun hbus hrx => ⟨exec_rxByte_of_echo hbus hrx,
    fun hb => ⟨fun hcount hnew => ?full, fun k hk hcount => ?room⟩⟩⟩
  case full =>
    have hfull : s.t.rxCount.toNat = s.cfg.rxCap := by rw [hcount, hcap]; rfl
    rw [exec_rxByte, receiveByte_of_answer hbus hrx hb, if_pos hfull, raise_of_notMem hnew]
    rfl
  case room =>
    rw [exec_rxByte, receiveByte_of_answer hbus hrx hb, if_neg (by omega), appended_of_count hk hcount]
    rfl

end Sys2Proof.Machine
end

section
/-! PROOFS. The schedule of discovery (41_discovery.md R161, R163, R168): the request of each state, D.Begin's
own step, and the three phases before an evaluation. -/

namespace Sys2Proof.Machine

/-! ### The requests -/

theorem scanNad_of_lt (c : Config) {k : Nat} (h : k < 8) : scanNad c k = c.scanNad[k] := by
  rw [scanNad, Vector.getElem?_eq_getElem h, Option.getD_some]

/-- Every state but D.Begin sends eight bytes (R92). -/
theorem request_length (c : Config) (d : Discovery) {S : DMode} (hS : S ≠ .begin) :
    (request c d S).length = 8 := by
  cases S with
  | begin => exact absurd rfl hS
  | ann1 | ann2 | pre1 | pre2 | post1 | post2 => exact Vector.length_toList
  | scan | readStatus | readUpHi | readUpLo | readLoHi | readLoLo | writeId => rfl

/-- The five register reads send the read request of their register (R92, R170). -/
theorem request_of_readRow {S next : DMode} {reg : Config → Byte} {store : Byte → NodeRecord → NodeRecord}
    (h : Claims.readRow S = some (next, reg, store)) (c : Config) (d : Discovery) :
    request c d S = readRequest c d.cand.toNat (reg c) := by
  cases S with
  | readStatus | readUpHi | readUpLo | readLoHi | readLoLo => cases h; rfl
  | begin | ann1 | ann2 | pre1 | pre2 | scan | writeId | post1 | post2 => cases h

/-- Settles O42: the candidate's node address is `SCAN_NAD[k]` and the filler R7's 0xFF. -/
theorem discoveryRequests : Obligations.DiscoveryRequests := by
  intro c d k hk hcfg hcand
  obtain ⟨-, -, -, -, -, -, -, -, -, -, -, -, -, -, hfiller, -⟩ := tableValues_fields hcfg
  have hnad : scanNad c d.cand.toNat = c.scanNad[k] := by rw [hcand, scanNad_of_lt c hk]
  refine ⟨fun S hS => request_length c d hS, ?scan, fun S next reg store hrow => ?read, fun hfound => ?left,
    fun hfound => ?right, rfl, rfl, rfl, rfl, rfl, rfl⟩
  case scan => rw [request, hnad, hfiller]; rfl
  case read => rw [request_of_readRow hrow, readRequest, hnad, hfiller]; rfl
  case left => rw [request, hnad, hfiller, hfound]; rfl
  case right => rw [request, hnad, hfiller, hfound]; rfl

/-! ### The phases -/

theorem exec_tick_of_startup {S : DMode} {s : State} (hmode : s.desk.mode = .startup S) :
    exec .tick s = .next (discoveryStep S s).result := by
  show Host.Outcome.next (tickBody s).result = _
  rw [tickBody, hmode]

section phases
variable {S : DMode} {s : State}

theorem discoveryStep_hold (hS : S ≠ .begin) (hcfg : s.cfg.tableValues = true) (h : s.d.discT.toNat < 2) :
    discoveryStep S s = countTick s := by
  obtain ⟨-, -, -, -, -, -, hhold, -⟩ := tableValues_fields hcfg
  rw [discoveryStep, if_neg hS]
  exact if_pos (by omega)

theorem discoveryStep_request (hS : S ≠ .begin) (hcfg : s.cfg.tableValues = true) (h : s.d.discT = 2) :
    discoveryStep S s = (transportWrite 0x3C (request s.cfg s.d S) s).andThen countTick := by
  obtain ⟨-, htx, -, -, -, -, hhold, -⟩ := tableValues_fields hcfg
  rw [discoveryStep, if_neg hS, htx, hhold, h]
  rfl

theorem discoveryStep_read (hS : S ≠ .begin) (hcfg : s.cfg.tableValues = true) (h : s.d.discT = 3) :
    discoveryStep S s = (transportRead 0x3D s).andThen countTick := by
  obtain ⟨-, -, hrx, -, -, -, hhold, hdelay, -⟩ := tableValues_fields hcfg
  rw [discoveryStep, if_neg hS, hrx, hhold, hdelay, h]
  rfl

theorem discoveryStep_evaluate (hS : S ≠ .begin) (hcfg : s.cfg.tableValues = true) (h : s.d.discT = 4) :
    discoveryStep S s = evalState S (transportGetRx s).1 (transportGetRx s).2 := by
  obtain ⟨-, -, -, -, -, -, hhold, hdelay, -⟩ := tableValues_fields hcfg
  rw [discoveryStep, if_neg hS, hhold, hdelay, h]
  rfl

end phases

/-! ### D.Begin -/

theorem discoveryStep_begin (s : State) : discoveryStep .begin s = .go (stepBegin s) := rfl

theorem stepBegin_of_lt {s : State} (h : s.d.discT.toNat < s.cfg.holdTicks) :
    stepBegin s = s.withD { s.d with discT := s.d.discT + 1 } := if_pos h

theorem stepBegin_of_le {s : State} (h : s.cfg.holdTicks ≤ s.d.discT.toNat) : stepBegin s
    = enter .ann1 ((s.withD { s.d with cand := 0, retry := 0, found := 0 }).withNode
      (Vector.replicate 8 .atReset)) := if_neg (by omega)

/-- Settles O43: D.Begin holds for R7's two ticks, and `enter` clears the tick counter. -/
theorem discoveryBegins : Obligations.DiscoveryBegins := by
  intro s hcfg hmode
  obtain ⟨-, -, -, -, -, -, hhold, -⟩ := tableValues_fields hcfg
  rw [exec_tick_of_startup hmode, discoveryStep_begin, Flow.result_go]
  refine ⟨fun hlow => ?hold, fun hdone => ?act⟩
  case hold => rw [stepBegin_of_lt (by omega)]; rfl
  case act => rw [stepBegin_of_le (by omega)]; rfl

/-! ### The request and the read -/

/-- What a transport call gives from a clean state: it goes on clean, or has ended the step in a state that is
not. -/
def CleanUnlessStopped (f : Flow) : Prop :=
  (∃ u, f = .go u ∧ u.faults = [] ∧ u.refused = none)
  ∨ (∃ u, f = .stop u ∧ (u.faults ≠ [] ∨ u.refused ≠ none))

/-- The tick is counted exactly when the call has left a clean state (R161). -/
theorem CleanUnlessStopped.andThen_countTick {f : Flow} (h : CleanUnlessStopped f) :
    (f.result.Clean → (f.andThen countTick).result
      = f.result.withD { f.result.d with discT := f.result.d.discT + 1 })
    ∧ (¬ f.result.Clean → (f.andThen countTick).result = f.result) := by
  rcases h with ⟨u, rfl, hfaults, hrefused⟩ | ⟨u, rfl, hdirty⟩
  · exact ⟨fun _ => rfl, fun hdirty => absurd ⟨hfaults, hrefused⟩ hdirty⟩
  · refine ⟨fun hclean => ?_, fun _ => rfl⟩
    rcases hdirty with hf | hr
    · exact absurd hclean.faults hf
    · exact absurd hclean.refused hr

/-- A phase of the schedule that makes one transport call: the call's effect alone, and the tick counted unless
the step ended in it. -/
theorem exec_tick_of_call {S : DMode} {s : State} {f : Flow} {k k' : BitVec 3}
    (hmode : s.desk.mode = .startup S) (hstep : discoveryStep S s = f.andThen countTick)
    (hf : CleanUnlessStopped f) (htransport : OnlyTransport s f.result) (hk : s.d.discT = k) (hk' : k + 1 = k') :
    (f.result.Clean → exec .tick s = .next { f.result with d := { f.result.d with discT := k' } })
    ∧ (¬ f.result.Clean → exec .tick s = .next f.result) := by
  obtain ⟨-, -, -, hd, -⟩ := htransport.same
  obtain ⟨hcounted, hended⟩ := hf.andThen_countTick
  rw [exec_tick_of_startup hmode, hstep]
  refine ⟨fun hclean => ?_, fun hdirty => by rw [hended hdirty]⟩
  rw [hcounted hclean, hd, hk, hk']
  rfl

/-- Settles O44: each phase is one call of the transport, which a clean state leaves clean unless the step
ended. -/
theorem discoverySchedule : Obligations.DiscoverySchedule := by
  intro S s hcfg hclean hmode hS
  refine ⟨fun hlow => ?hold, fun hdiscT => ⟨_, exec_tWrite _ _ s, ?request⟩,
    fun hdiscT => ⟨_, exec_tRead _ s, ?read⟩⟩
  case hold => rw [exec_tick_of_startup hmode, discoveryStep_hold hS hcfg hlow]; rfl
  case request =>
    exact exec_tick_of_call hmode (discoveryStep_request hS hcfg hdiscT)
      (transportWrite_clean _ _ hclean.faults hclean.refused) (.ofWrite _ _ s) hdiscT rfl
  case read =>
    exact exec_tick_of_call hmode (discoveryStep_read hS hcfg hdiscT)
      (transportRead_clean _ hclean.faults hclean.refused) (.ofRead _ s) hdiscT rfl

end Sys2Proof.Machine
end

section
/-! PROOFS. The evaluations of discovery (41_discovery.md R164 to R182). At the evaluation tick T_GETRX changes
only the transport's registers, so what a TICK does there is the state's evaluation on its result; each evaluation
is said once by an equation for each of its branches. -/

namespace Sys2Proof.Machine

/-- T_GETRX writes the transport's registers only. -/
theorem transportGetRx_snd (s : State) : ∃ v, (transportGetRx s).2 = s.withT v := by
  rcases transportGetRx_cases s with ⟨-, h⟩ | ⟨-, h⟩ <;> rw [h]
  · exact ⟨s.t, rfl⟩
  · exact ⟨endReception s.t, rfl⟩

/-- The evaluation tick evaluates what T_GETRX alone returns, in the state it leaves (R161). -/
theorem exec_atEvaluation {S : DMode} {s : State} (h : Claims.AtEvaluation S s) (hS : S ≠ .begin) :
    ∃ v r, exec .tGetRx s = .next ((s.withT v).withUopResult (some r))
      ∧ exec .tick s = .next (evalState S r (s.withT v)).result := by
  obtain ⟨hcfg, hmode, hdiscT⟩ := h
  obtain ⟨v, hv⟩ := transportGetRx_snd s
  refine ⟨v, (transportGetRx s).1, ?getRx, ?tick⟩
  case getRx => rw [exec_tGetRx, hv]
  case tick => rw [exec_tick_of_startup hmode, discoveryStep_evaluate hS hcfg hdiscT, hv]

/-! ### The fixed frames -/

theorem evalState_of_fixedNext {S next : DMode} (h : Claims.fixedNext S = some next) (r : List Byte)
    (s : State) : evalState S r s = .go (enter next s) := by
  cases S with
  | ann1 | ann2 | pre1 | pre2 | post1 => cases h; rfl
  | begin | scan | readStatus | readUpHi | readUpLo | readLoHi | readLoLo | writeId | post2 => cases h

/-- Settles O45: these evaluations only enter the next state. -/
theorem fixedFramesIgnoreTheResponse : Obligations.FixedFramesIgnoreTheResponse := by
  intro S next s h hnext
  have hS : S ≠ .begin := by rintro rfl; cases hnext
  obtain ⟨v, r, hget, htick⟩ := exec_atEvaluation h hS
  refine ⟨_, hget, ?_⟩
  rw [htick, evalState_of_fixedNext hnext]
  rfl

/-! ### The next candidate and the retry -/

/-- `advance()` from candidate `k`, the last one being 7 (R178). -/
theorem advance_of_cand {s : State} {k : Nat} (hcfg : s.cfg.tableValues = true) (hcand : s.d.cand.toNat = k) :
    advance s = enter (if k = 7 then .post1 else .scan)
      (s.withD { s.d with cand := BitVec.ofNat 4 (k + 1) }) := by
  obtain ⟨-, -, -, -, -, hcount, -⟩ := tableValues_fields hcfg
  rcases advance_cases s with ⟨hlast, h⟩ | ⟨hmore, h⟩ <;> rw [h, hcand]
  · rw [if_pos (by omega)]
  · rw [if_neg (by omega)]

/-- `retry()` below the limit enters the state again (R177). -/
theorem retryRead_of_lt {S : DMode} {s : State} (hcfg : s.cfg.tableValues = true)
    (hmode : s.desk.mode = .startup S) (h : s.d.retry.toNat < 2) :
    retryRead S s = s.withD { s.d with retry := s.d.retry + 1, discT := 0 } := by
  obtain ⟨-, -, -, -, hmax, -⟩ := tableValues_fields hcfg
  have hnext : BitVec.ofNat 2 (s.d.retry.toNat + 1) = s.d.retry + 1 := by bv_omega
  rcases retryRead_cases S s with ⟨-, he⟩ | ⟨hlast, -⟩
  · rw [he, hnext, enter_eq, State.withD_desk, ← hmode]; rfl
  · omega

/-- The third invalid response in a row aborts to D.Begin (R177). -/
theorem retryRead_of_two {S : DMode} {s : State} (hcfg : s.cfg.tableValues = true) (h : s.d.retry = 2) :
    retryRead S s = enter .begin (s.withD { s.d with retry := 3 }) := by
  obtain ⟨-, -, -, -, hmax, -⟩ := tableValues_fields hcfg
  rcases retryRead_cases S s with ⟨hlow, -⟩ | ⟨-, he⟩
  · rw [hmax, h] at hlow; exact absurd hlow (by decide)
  · rw [he, h]; rfl

/-- The retry of a register state, as its tick shows it: again, or the abort. -/
theorem exec_tick_of_retry {S : DMode} {s : State} {v : Transport} (h : Claims.AtEvaluation S s)
    (htick : exec .tick s = .next (retryRead S (s.withT v))) :
    (s.d.retry.toNat < 2 → exec .tick s
      = .next ((s.withT v).withD { s.d with retry := s.d.retry + 1, discT := 0 }))
    ∧ (s.d.retry = 2 → exec .tick s
      = .next (enter .begin ((s.withT v).withD { s.d with retry := 3 }))) := by
  obtain ⟨hcfg, hmode, -⟩ := h
  rw [htick]
  exact ⟨fun hlow => congrArg _ (retryRead_of_lt (s := s.withT v) hcfg hmode hlow),
    fun htwo => congrArg _ (retryRead_of_two (s := s.withT v) hcfg htwo)⟩

/-! ### D.Scan -/

theorem evalScan_of_response {r : List Byte} {s : State} (hr : r ≠ [])
    (hfound : s.d.found.toNat ≠ s.cfg.motorCount) :
    evalScan r s = .go (enter .readStatus (s.withD { s.d with retry := 0 })) := by
  have hlen : 1 ≤ r.length := List.length_pos_iff.2 hr
  rw [evalScan, if_pos hlen, if_neg hfound]

theorem evalScan_of_third {r : List Byte} {s : State} (hr : r ≠ [])
    (hfound : s.d.found.toNat = s.cfg.motorCount) : evalScan r s = raise .extraNode s := by
  have hlen : 1 ≤ r.length := List.length_pos_iff.2 hr
  rw [evalScan, if_pos hlen, if_pos hfound]

theorem evalScan_nil (s : State) : evalScan [] s = .go (advance s) := rfl

/-- Settles O46, by whether there is a response, and how many nodes or candidates there have been. -/
theorem scanResult : Obligations.ScanResult := by
  intro s h
  obtain ⟨v, r, hget, htick⟩ := exec_atEvaluation h (by simp)
  obtain ⟨hcfg, -, -⟩ := h
  obtain ⟨-, -, -, -, -, -, -, -, -, -, hmotors, -⟩ := tableValues_fields hcfg
  replace htick : exec .tick s = .next (evalScan r (s.withT v)).result := htick
  refine ⟨_, r, hget, rfl, fun hr hfound => ?node, fun hr hfound hnew => ?third, fun hr hcand => ?more,
    fun hr hcand => ?last⟩
  case node =>
    have hroom : (s.withT v).d.found.toNat ≠ s.cfg.motorCount := by
      rw [hmotors, State.withT_d]; bv_omega
    rw [htick, evalScan_of_response hr hroom]
    rfl
  case third =>
    have hfull : (s.withT v).d.found.toNat = s.cfg.motorCount := by rw [hmotors, State.withT_d, hfound]; rfl
    rw [htick, evalScan_of_third hr hfull, raise_of_notMem (s := s.withT v) hnew]
    rfl
  case more =>
    have hnext : BitVec.ofNat 4 (s.d.cand.toNat + 1) = s.d.cand + 1 := by bv_omega
    rw [htick, hr, evalScan_nil, advance_of_cand (s := s.withT v) hcfg rfl, if_neg (by simp; omega),
      State.withT_d, hnext]
    rfl
  case last =>
    rw [htick, hr, evalScan_nil, advance_of_cand (s := s.withT v) (k := 7) hcfg (congrArg _ hcand)]
    rfl

/-! ### The register reads -/

/-- The evaluation of a register read is `evalRegister` with its row of R170's table. -/
theorem evalState_of_readRow {S next : DMode} {reg : Config → Byte} {store : Byte → NodeRecord → NodeRecord}
    (h : Claims.readRow S = some (next, reg, store)) (r : List Byte) (s : State) :
    regOf s.cfg S = some (reg s.cfg) ∧ evalState S r s = .go (evalRegister S next store r s) := by
  cases S with
  | readStatus | readUpHi | readUpLo | readLoHi | readLoLo => cases h; exact ⟨rfl, rfl⟩
  | begin | ann1 | ann2 | pre1 | pre2 | scan | writeId | post1 | post2 => cases h

theorem evalRegister_of_some {S next : DMode} {store : Byte → NodeRecord → NodeRecord} {r : List Byte}
    {s : State} {x : Byte} (hx : registerValue s.cfg S r = some x) (hcand : s.d.cand.toNat < 8) :
    evalRegister S next store r s
      = enter next ((s.withNode (s.node.set s.d.cand.toNat (store x s.node[s.d.cand.toNat]))).withD
        { s.d with retry := 0 }) := by
  simp only [evalRegister, hx, updateNode_of_lt _ hcand]
  rfl

theorem evalRegister_of_none {S next : DMode} {store : Byte → NodeRecord → NodeRecord} {r : List Byte}
    {s : State} (hx : registerValue s.cfg S r = none) : evalRegister S next store r s = retryRead S s := by
  rw [evalRegister, hx]

/-- Settles O47: the response has the register's value, or it is retried. -/
theorem registerReadResult : Obligations.RegisterReadResult := by
  intro S next reg store s k hk h hrow hcand
  have hS : S ≠ .begin := by rintro rfl; cases hrow
  obtain ⟨v, r, hget, htick⟩ := exec_atEvaluation h hS
  obtain ⟨hreg, heval⟩ := evalState_of_readRow hrow r (s.withT v)
  rw [heval, Flow.result_go] at htick
  refine ⟨_, r, hget, rfl, fun x hecho hvalue => ?valid, fun hinvalid => exec_tick_of_retry (v := v) h ?invalid⟩
  case valid =>
    subst hcand
    rw [htick, evalRegister_of_some (s := s.withT v) (registerValue_some hreg hecho hvalue) hk]
    rfl
  case invalid => rw [htick, evalRegister_of_none (registerValue_none hreg hinvalid)]

/-! ### D.WriteId -/

/-- The identifiers are assigned left first (R7, R176). -/
theorem assignId_of_le_one (c : Config) {found : BitVec 2} (h : found.toNat ≤ 1) :
    assignId c found.toNat = if found = 0 then c.addrMotorL else c.addrMotorR := by
  have hcases : found = 0 ∨ found = 1 := by bv_omega
  rcases hcases with rfl | rfl <;> rfl

/-- The candidate's record gets its identifier and becomes valid, and the next candidate's turn comes (R176). -/
theorem evalWriteId_of_some {r : List Byte} {s : State} {x : Byte} (hcfg : s.cfg.tableValues = true)
    (hx : registerValue s.cfg .writeId r = some x) (hcand : s.d.cand.toNat < 8) (hfound : s.d.found.toNat ≤ 1) :
    evalWriteId r s = enter (if s.d.cand.toNat = 7 then .post1 else .scan)
      ((s.withNode (s.node.set s.d.cand.toNat { s.node[s.d.cand.toNat] with
          ident := if s.d.found = 0 then s.cfg.addrMotorL else s.cfg.addrMotorR, valid := true })).withD
        { s.d with cand := BitVec.ofNat 4 (s.d.cand.toNat + 1), retry := 0, found := s.d.found + 1 }) := by
  simp only [evalWriteId, hx, updateNode_of_lt _ hcand, assignId_of_le_one s.cfg hfound]
  exact advance_of_cand (k := s.d.cand.toNat) hcfg rfl

theorem evalWriteId_of_none {r : List Byte} {s : State} (hx : registerValue s.cfg .writeId r = none) :
    evalWriteId r s = retryRead .writeId s := by
  rw [evalWriteId, hx]

/-- Settles O48: a valid echo assigns the identifier and advances, any other response is retried. -/
theorem writeIdentifierResult : Obligations.WriteIdentifierResult := by
  intro s k hk h hcand hfound
  obtain ⟨v, r, hget, htick⟩ := exec_atEvaluation h (by simp)
  replace htick : exec .tick s = .next (evalWriteId r (s.withT v)) := htick
  refine ⟨_, r, hget, rfl, fun hlen hecho => ?valid, fun hinvalid => exec_tick_of_retry (v := v) h ?invalid⟩
  case valid =>
    obtain ⟨hcfg, -, -⟩ := h
    subst hcand
    have hvalue := registerValue_some (c := s.cfg) (S := .writeId) rfl hecho
      (List.getElem?_eq_getElem (i := 3) (by omega))
    rw [htick, evalWriteId_of_some (s := s.withT v) hcfg hvalue hk hfound]
    rfl
  case invalid => rw [htick, evalWriteId_of_none (s := s.withT v) (registerValue_none rfl hinvalid)]

/-! ### D.Post2 -/

/-- Completion: the motors' records from the found nodes (R181), the limits their intersection (R182). -/
theorem completeDiscovery_motor (s : State) : (completeDiscovery s).motor
    = #v[motorFromNode s.cfg.addrMotorL (foundNodes s)[0]?, motorFromNode s.cfg.addrMotorR (foundNodes s)[1]?] :=
  rfl

theorem completeDiscovery_lower (s : State) : (completeDiscovery s).desk.lower.toNat
    = max (completeDiscovery s).motor[0].lower.toNat (completeDiscovery s).motor[1].lower.toNat :=
  posMax_toNat _ _

theorem completeDiscovery_upper (s : State) : (completeDiscovery s).desk.upper.toNat
    = min (completeDiscovery s).motor[0].upper.toNat (completeDiscovery s).motor[1].upper.toNat :=
  posMin_toNat _ _

theorem evalPost2_of_zero {s : State} (h : s.d.found = 0) :
    evalPost2 s = enter .scan (s.withD { s.d with cand := 0 }) := if_pos h

theorem evalPost2_of_ne_zero {s : State} (h : s.d.found ≠ 0) : evalPost2 s = completeDiscovery s := if_neg h

/-- Settles O49: with nodes found, the state after is `completeDiscovery`'s. -/
theorem discoveryCompletes : Obligations.DiscoveryCompletes := by
  intro s h
  obtain ⟨v, r, hget, htick⟩ := exec_atEvaluation h (by simp)
  replace htick : exec .tick s = .next (evalPost2 (s.withT v)) := htick
  refine ⟨_, hget, fun hnone => ?rescan, fun hsome n0 rest hnodes => ?complete⟩
  case rescan => rw [htick, evalPost2_of_zero (s := s.withT v) hnone]; rfl
  case complete =>
    rw [evalPost2_of_ne_zero (s := s.withT v) hsome] at htick
    have hfound : foundNodes (s.withT v) = n0 :: rest := hnodes
    have hmotor := completeDiscovery_motor (s.withT v)
    rw [hfound] at hmotor
    refine ⟨_, htick, ?frame, ?left, fun hrest => ?alone, fun n1 more hrest => ?right,
      completeDiscovery_lower _, completeDiscovery_upper _⟩
    case frame => exact completeDiscovery_eq (s.withT v)
    case left => rw [hmotor]; rfl
    case alone => rw [hmotor, hrest]; rfl
    case right => rw [hmotor, hrest]; rfl

end Sys2Proof.Machine
end

section
/-! PROOFS. What a TICK changes (41_discovery.md R160, R180 to R182, 10_state.md R75): a step of discovery leaves
the desk's positions and flags alone and enters the Operation class only by completing; a step of the operation
cycle leaves discovery's registers and what it built alone. So in operation the limits stay what completion derived
(70_reset_and_hazards.md R323). -/

namespace Sys2Proof.Machine

/-! ### A step of discovery -/

/-- What a step of discovery may write of the desk and of the operation registers: mode, limits and slot. -/
structure DiscoveryFrame (s t : State) : Prop where
  desk : t.desk = { s.desk with mode := t.desk.mode, lower := t.desk.lower, upper := t.desk.upper }
  op : t.op = { s.op with slot := t.op.slot }

theorem DiscoveryFrame.trans {s t u : State} (h : DiscoveryFrame s t) (k : DiscoveryFrame t u) :
    DiscoveryFrame s u :=
  ⟨by rw [k.desk, h.desk], by rw [k.op, h.op]⟩

theorem OnlyDiscovery.frame {s t : State} (h : OnlyDiscovery s t) : DiscoveryFrame s t := ⟨h.desk, h.op⟩

theorem OnlyTransport.discoveryFrame {s t : State} (h : OnlyTransport s t) : DiscoveryFrame s t := by
  rw [h.rest]; exact ⟨rfl, rfl⟩

theorem discoveryFrame_andThen_countTick (f : Flow) : DiscoveryFrame f.result (f.andThen countTick).result := by
  rcases andThen_countTick_result f with h | h <;> rw [h] <;> exact ⟨rfl, rfl⟩

theorem discoveryFrame_discoveryStep (S : DMode) (s : State) : DiscoveryFrame s (discoveryStep S s).result := by
  have collected := (OnlyTransport.ofGetRx s).discoveryFrame
  rcases discoveryStep_cases S s with
    ⟨-, h⟩ | ⟨hS, ⟨-, h⟩ | ⟨-, h⟩ | ⟨-, ⟨-, h⟩ | ⟨-, h⟩⟩⟩ <;> rw [h]
  · exact (OnlyDiscovery.ofStepBegin s).frame
  · exact (OnlyDiscovery.ofCountTick s).frame
  · exact (OnlyTransport.ofWrite _ _ s).discoveryFrame.trans (discoveryFrame_andThen_countTick _)
  · exact (OnlyTransport.ofRead _ s).discoveryFrame.trans (discoveryFrame_andThen_countTick _)
  · rcases evalState_cases hS (transportGetRx s).1 (transportGetRx s).2 with ⟨u, hu, ho, -⟩ | hf
    · rw [hu]; exact collected.trans ho.frame
    · rw [hf]; exact collected.trans (OnlyTransport.ofRaise _ _).discoveryFrame

/-- The desk is in the Startup class. -/
def InStartup (s : State) : Prop := ∃ S, s.desk.mode = .startup S

theorem inStartup_enter (S : DMode) (s : State) : InStartup (enter S s) := ⟨S, rfl⟩

theorem inStartup_evalRegister (S next : DMode) (store : Byte → NodeRecord → NodeRecord) (r : List Byte)
    (s : State) : InStartup (evalRegister S next store r s) := by
  rcases evalRegister_cases S next store r s with ⟨v, -, h⟩ | ⟨-, h⟩ <;> rw [h] <;> exact inStartup_enter _ _

/-- An evaluation stays in the Startup class, unless D.Post2 completes discovery (R164 to R180). -/
theorem evalState_mode {s : State} (hs : InStartup s) (S : DMode) (r : List Byte) :
    InStartup (evalState S r s).result
    ∨ (S = .post2 ∧ s.d.found ≠ 0 ∧ evalState S r s = .go (completeDiscovery s)) := by
  cases S with
  | begin => exact .inl hs
  | ann1 | ann2 | pre1 | pre2 | post1 => exact .inl (inStartup_enter _ _)
  | readStatus | readUpHi | readUpLo | readLoHi | readLoLo => exact .inl (inStartup_evalRegister _ _ _ _ _)
  | scan =>
    left
    show InStartup (evalScan r s).result
    rcases evalScan_cases r s with ⟨-, h⟩ | h | h <;> rw [h]
    · exact inStartup_enter _ _
    · exact hs
    · exact inStartup_enter _ _
  | writeId =>
    left
    show InStartup (evalWriteId r s)
    rcases evalWriteId_cases r s with h | h <;> rw [h] <;> exact inStartup_enter _ _
  | post2 =>
    show InStartup (evalPost2 s) ∨ (_ ∧ _ ∧ Flow.go (evalPost2 s) = _)
    rcases evalPost2_cases s with ⟨-, h⟩ | ⟨hfound, h⟩ <;> rw [h]
    · exact .inl (inStartup_enter _ _)
    · exact .inr ⟨rfl, hfound, rfl⟩

theorem OnlyTransport.inStartup {s t : State} (ht : OnlyTransport s t) (h : InStartup s) : InStartup t := by
  obtain ⟨-, -, -, -, hdesk, -⟩ := ht.same
  rwa [InStartup, hdesk]

theorem inStartup_andThen_countTick {f : Flow} (h : InStartup f.result) :
    InStartup (f.andThen countTick).result := by
  rcases andThen_countTick_result f with he | he <;> rw [he] <;> exact h

/-- A step of discovery stays in the Startup class, unless D.Post2 completes discovery. -/
theorem discoveryStep_mode {s : State} (hs : InStartup s) (S : DMode) :
    InStartup (discoveryStep S s).result
    ∨ (S = .post2 ∧ s.d.found ≠ 0
      ∧ (discoveryStep S s).result = completeDiscovery (transportGetRx s).2) := by
  rcases discoveryStep_cases S s with
    ⟨-, h⟩ | ⟨-, ⟨-, h⟩ | ⟨-, h⟩ | ⟨-, ⟨-, h⟩ | ⟨-, h⟩⟩⟩ <;> rw [h]
  · left
    show InStartup (stepBegin s)
    unfold stepBegin
    split
    · exact hs
    · exact inStartup_enter _ _
  · exact .inl hs
  · exact .inl (inStartup_andThen_countTick ((OnlyTransport.ofWrite _ _ s).inStartup hs))
  · exact .inl (inStartup_andThen_countTick ((OnlyTransport.ofRead _ s).inStartup hs))
  · have collected := OnlyTransport.ofGetRx s
    obtain ⟨-, -, -, hd, -⟩ := collected.same
    refine (evalState_mode (collected.inStartup hs) S _).imp_right fun ⟨hS, hfound, he⟩ => ?_
    rw [hd] at hfound
    exact ⟨hS, hfound, by rw [he, Flow.result_go]⟩

/-- Settles O15: no other instruction goes from outside to an Operation mode, and of a TICK only D.Post2's
completion does. -/
theorem operationEnteredOnlyFromPost2 : Obligations.OperationEnteredOnlyFromPost2 := by
  intro i s t m h hm hout
  cases execNext h with
  | request ht => exact absurd (ht.mode.symm.trans hm) (hout m)
  | start _ ht => rw [ht] at hm; cases hm
  | restart _ _ _ _ ht => rw [ht] at hm; cases hm
  | transport ht =>
    obtain ⟨-, -, hdesk, -⟩ := ht.same
    exact absurd (hdesk ▸ hm) (hout m)
  | tick ht =>
    rcases tickBody_cases s with ⟨-, he⟩ | ⟨S, hS, he⟩ | ⟨m', hm', -⟩
    · rw [ht, he] at hm; exact absurd hm (hout m)
    · rw [he] at ht
      rcases discoveryStep_mode ⟨S, hS⟩ S with ⟨S', hS'⟩ | ⟨rfl, hfound, hc⟩
      · rw [ht, hS'] at hm; cases hm
      · rw [ht, hc, completeDiscovery_eq] at hm ⊢
        cases hm
        exact ⟨rfl, hS, hfound, rfl, rfl⟩
    · exact absurd hm' (hout m')

/-! ### A step of the operation cycle -/

/-- What discovery built of a motor's record and nothing in operation changes. -/
structure SameBuild (m m' : MotorRecord) : Prop where
  addr : m'.addr = m.addr
  lower : m'.lower = m.lower
  upper : m'.upper = m.upper

theorem SameBuild.refl (m : MotorRecord) : SameBuild m m := ⟨rfl, rfl, rfl⟩

theorem SameBuild.ofReading (c : Config) (r : List Byte) (m : MotorRecord) : SameBuild m (readingOf c r m) := by
  obtain ⟨haddr, -, hlower, hupper⟩ := readingOf_keeps c r m
  exact ⟨haddr, hlower, hupper⟩

/-- `t` has `s`'s configuration, its desk limits and the motors' records as discovery built them. -/
structure SameLimits (s t : State) : Prop where
  cfg : t.cfg = s.cfg
  lower : t.desk.lower = s.desk.lower
  upper : t.desk.upper = s.desk.upper
  motor : ∀ u, ∀ h : u < 2, SameBuild (s.motor[u]'h) (t.motor[u]'h)

/-- What a step of the operation cycle leaves alone: what discovery built, and discovery's own registers. -/
structure OperationFrame (s t : State) : Prop extends SameLimits s t where
  d : t.d = s.d
  node : t.node = s.node

theorem sameLimits_of_eq {s t : State} (hcfg : t.cfg = s.cfg) (hlower : t.desk.lower = s.desk.lower)
    (hupper : t.desk.upper = s.desk.upper) (hmotor : t.motor = s.motor) : SameLimits s t :=
  ⟨hcfg, hlower, hupper, fun _ _ => by rw [hmotor]; exact .refl _⟩

theorem OperationFrame.trans {s t u : State} (h : OperationFrame s t) (k : OperationFrame t u) :
    OperationFrame s u where
  cfg := k.cfg.trans h.cfg
  lower := k.lower.trans h.lower
  upper := k.upper.trans h.upper
  motor j hj :=
    have hm := h.motor j hj
    have km := k.motor j hj
    ⟨km.addr.trans hm.addr, km.lower.trans hm.lower, km.upper.trans hm.upper⟩
  d := k.d.trans h.d
  node := k.node.trans h.node

theorem OnlyTransport.operationFrame {s t : State} (h : OnlyTransport s t) : OperationFrame s t := by
  rw [h.rest]; exact ⟨sameLimits_of_eq rfl rfl rfl rfl, rfl, rfl⟩

theorem OnlyDesk.operationFrame {s t : State} (h : OnlyDesk s t) : OperationFrame s t := by
  rw [h.rest, h.desk]; exact ⟨sameLimits_of_eq rfl rfl rfl rfl, rfl, rfl⟩

theorem operationFrame_withOp (s : State) (v : Operation) : OperationFrame s (s.withOp v) :=
  ⟨sameLimits_of_eq rfl rfl rfl rfl, rfl, rfl⟩

theorem operationFrame_withDesk {s : State} {v : Desk} (hlower : v.lower = s.desk.lower)
    (hupper : v.upper = s.desk.upper) : OperationFrame s (s.withDesk v) :=
  ⟨sameLimits_of_eq rfl hlower hupper rfl, rfl, rfl⟩

/-- A reading is written into the record of one motor (R205). -/
theorem sameBuild_set (s : State) (u : Fin 2) (r : List Byte) (k : Nat) (hk : k < 2) :
    SameBuild s.motor[k] (s.motor.set u (readingOf s.cfg r s.motor[u]))[k] := by
  rw [Vector.getElem_set]
  split
  case isTrue heq => subst heq; exact .ofReading _ _ _
  case isFalse => exact .refl _

theorem operationFrame_process (u : Fin 2) (r : List Byte) (s : State) : OperationFrame s (process u r s) := by
  rcases process_cases u r s with h | ⟨-, -, -, h⟩ <;> rw [h] <;>
    exact ⟨⟨rfl, rfl, rfl, sameBuild_set s u r⟩, rfl, rfl⟩

theorem operationFrame_slotAction (k : Nat) (m : OMode) (s : State) :
    OperationFrame s (slotAction k m s).result := by
  have collected := (OnlyTransport.ofGetRx s).operationFrame
  unfold slotAction
  split
  case h_1 =>
    have busy : OperationFrame s (s.withDesk { s.desk with busy := true }) := operationFrame_withDesk rfl rfl
    exact busy.trans (OnlyTransport.ofWrite _ _ _).operationFrame
  case h_2 => exact (OnlyTransport.ofRead _ s).operationFrame
  case h_3 =>
    exact (collected.trans (operationFrame_process _ _ _)).trans (OnlyTransport.ofRead _ _).operationFrame
  case h_4 => exact collected.trans (operationFrame_process _ _ _)
  case h_5 => exact operationFrame_withDesk rfl rfl
  case h_6 => exact (OnlyDesk.ofStep m s).operationFrame
  case h_7 => exact (OnlyTransport.ofWrite _ _ s).operationFrame
  case h_8 => exact operationFrame_withDesk rfl rfl
  case h_9 => exact (OnlyTransport.refl s).operationFrame

theorem operationFrame_operationStep (m : OMode) (s : State) :
    OperationFrame s (operationStep m s).result := by
  have action := operationFrame_slotAction s.op.slot.toNat m s
  rcases operationStep_result m s with h | h <;> rw [h]
  · exact action
  · exact action.trans (operationFrame_withOp _ _)

/-- The operation cycle never leaves its class. -/
theorem inOperation_operationStep (m : OMode) {s : State} (h : InOperation s) :
    InOperation (operationStep m s).result := by
  have action := (inCycle_slotAction s.op.slot.toNat m h).operation
  rcases operationStep_result m s with he | he <;> rw [he] <;> exact action

/-- Settles O20: by the controller that runs, each with its frame. -/
theorem tickFrame : Obligations.TickFrame := by
  intro s t h
  obtain rfl : (tickBody s).result = t := by cases h; rfl
  have history := (tickTransport_tickBody s).historyGrows
  refine ⟨history.cfg, tickBody_resp s, history.uopResult, history.input, fun hm => ?idle,
    fun ⟨S, hm⟩ => ?startup, fun ⟨m, hm⟩ => ?operation⟩
  case idle => rw [tickBody, hm]; rfl
  case startup =>
    have he : tickBody s = discoveryStep S s := by rw [tickBody, hm]
    obtain ⟨hdesk, hop⟩ := discoveryFrame_discoveryStep S s
    rw [he]
    exact ⟨by rw [hdesk], by rw [hdesk], by rw [hdesk], by rw [hdesk], hop⟩
  case operation =>
    have he : tickBody s = operationStep m s := by rw [tickBody, hm]
    have frame := operationFrame_operationStep m s
    rw [he]
    exact ⟨frame.d, frame.node, frame.lower, frame.upper, inOperation_operationStep m ⟨m, hm⟩⟩

/-! ### The desk limits -/

theorem limitsOk_of_not_operation {s : State} (h : ¬ InOperation s) : LimitsOk s :=
  ⟨fun m hm => absurd ⟨m, hm⟩ h, fun m hm => absurd ⟨m, hm⟩ h, fun m hm => absurd ⟨m, hm⟩ h⟩

theorem InStartup.not_inOperation {s : State} (h : InStartup s) : ¬ InOperation s := by
  obtain ⟨S, hS⟩ := h
  rintro ⟨m, hm⟩
  rw [hS] at hm
  cases hm

/-- The invariant looks at the limits, what discovery built, and whether the desk is in operation. -/
theorem LimitsOk.of_sameLimits {s t : State} (h : LimitsOk s) (hsame : SameLimits s t)
    (hmode : InOperation t → InOperation s) : LimitsOk t := by
  obtain ⟨hcfg, hlower, hupper, hmotor⟩ := hsame
  have left := hmotor 0 (by decide)
  have right := hmotor 1 (by decide)
  refine ⟨fun m hm => ?_, fun m hm => ?_, fun m hm => ?_⟩ <;> obtain ⟨m', hm'⟩ := hmode ⟨m, hm⟩
  · rw [hlower, left.lower, right.lower]; exact h.lower m' hm'
  · rw [hupper, left.upper, right.upper]; exact h.upper m' hm'
  · rw [hcfg, left.addr, right.addr]; exact h.addrs m' hm'

/-- Completion assigns the addresses and derives the limits (R181, R182). -/
theorem limitsOk_completeDiscovery (s : State) : LimitsOk (completeDiscovery s) where
  lower _ _ := completeDiscovery_lower s
  upper _ _ := completeDiscovery_upper s
  addrs _ _ := by
    have haddr (a : LinAddr) (nd : Option NodeRecord) : (motorFromNode a nd).addr = a := by cases nd <;> rfl
    rw [completeDiscovery_motor]
    exact ⟨haddr _ _, haddr _ _⟩

theorem TransportCall.sameLimits {i : Instr} {s t : State} (h : TransportCall s t i) : SameLimits s t := by
  by_cases hi : i = .tGetRx
  · subst hi
    cases h with
    | getRx h =>
      obtain ⟨hcfg, hlower, hupper, hmotor⟩ := (OnlyTransport.ofGetRx s).operationFrame.toSameLimits
      rw [h]; exact ⟨hcfg, hlower, hupper, hmotor⟩
    | reserved h => rw [h]; exact sameLimits_of_eq rfl rfl rfl rfl
  · exact (h.onlyTransport hi).operationFrame.toSameLimits

theorem limitsOk_tick {s : State} (h : LimitsOk s) : LimitsOk (tickBody s).result := by
  rcases tickBody_cases s with ⟨-, ht⟩ | ⟨S, hm, ht⟩ | ⟨m, hm, ht⟩ <;> rw [ht]
  · exact h
  · rcases discoveryStep_mode ⟨S, hm⟩ S with hstays | ⟨-, -, hc⟩
    · exact limitsOk_of_not_operation hstays.not_inOperation
    · rw [hc]; exact limitsOk_completeDiscovery _
  · exact h.of_sameLimits (operationFrame_operationStep m s).toSameLimits fun _ => ⟨m, hm⟩

theorem ExecNext.limitsOk {i : Instr} {s t : State} (h : LimitsOk s) (ht : ExecNext s t i) : LimitsOk t := by
  cases ht with
  | request ht =>
    rw [ht.rest, ht.desk]
    exact h.of_sameLimits (sameLimits_of_eq rfl rfl rfl rfl) id
  | start _ ht => rw [ht]; exact limitsOk_of_not_operation (InStartup.not_inOperation ⟨.begin, rfl⟩)
  | restart _ _ _ _ ht => rw [ht]; exact limitsOk_of_not_operation nofun
  | tick ht => rw [ht]; exact limitsOk_tick h
  | transport ht =>
    obtain ⟨-, -, hdesk, -⟩ := ht.same
    exact h.of_sameLimits ht.sameLimits fun ⟨m, hm⟩ => ⟨m, hdesk ▸ hm⟩

/-- Settles O11: completion derives the limits, and in operation nothing writes what they are derived from. -/
theorem stepKeepsLimitsOk : Obligations.StepKeepsLimitsOk := by
  intro s t hs h
  exact step_keeps (C := fun _ => True) (P := LimitsOk)
    (fun _ _ hs => hs.of_sameLimits (sameLimits_of_eq rfl rfl rfl rfl) id)
    (fun _ _ _ _ hs ht => ht.limitsOk hs) trivial hs h

end Sys2Proof.Machine
end

section
/-! PROOFS. The operation cycle by its slots (42_operation.md R200 to R211): a slot's action and then the next
slot; the quiet slots, the slots that send, and the slots that collect a reading, which alone enter Rescue
(60_exceptions.md R300). -/

namespace Sys2Proof.Machine

/-! ### A slot of the cycle -/

theorem exec_tick_of_operation {m : OMode} {s : State} (hmode : s.desk.mode = .operation m) :
    exec .tick s = .next (operationStep m s).result := by
  show Host.Outcome.next (tickBody s).result = _
  rw [tickBody, hmode]

/-- The slot wraps after R7's 19 slots (R200). -/
theorem nextSlot_eq {c : Config} (h : c.tableValues = true) (k : BitVec 5) :
    nextSlot c k = if k = 18 then 0 else k + 1 := by
  obtain ⟨-, -, -, -, -, -, -, -, hlen, -⟩ := tableValues_fields h
  have hlast : k.toNat + 1 = c.cycleLen ↔ k = 18 := by rw [hlen]; bv_omega
  simp only [nextSlot, hlast]

/-- An action that goes on leaves its state, with the slot advanced. -/
theorem exec_tick_of_go {k : BitVec 5} {m : OMode} {s u : State} (h : Claims.AtSlot k m s)
    (hu : slotAction k.toNat m s = .go u) :
    exec .tick s = .next (u.withOp { u.op with slot := if k = 18 then 0 else k + 1 }) := by
  obtain ⟨hcfg, hmode, rfl⟩ := h
  rw [exec_tick_of_operation hmode, operationStep, hu, Flow.andThen_go, Flow.result_go, nextSlot_eq hcfg]

/-- An action that ends the step leaves its state as it is (R295, R296). -/
theorem exec_tick_of_stop {k : BitVec 5} {m : OMode} {s u : State} (h : Claims.AtSlot k m s)
    (hu : slotAction k.toNat m s = .stop u) : exec .tick s = .next u := by
  obtain ⟨-, hmode, rfl⟩ := h
  rw [exec_tick_of_operation hmode, operationStep, hu, Flow.andThen_stop, Flow.result_stop]

/-- A slot whose action ends in a transport call: the slot advances exactly when the call has left a clean
state. -/
theorem exec_tick_of_cleanUnlessStopped {k k' : BitVec 5} {m : OMode} {s : State} {f : Flow}
    (h : Claims.AtSlot k m s) (hf : slotAction k.toNat m s = f) (hclean : CleanUnlessStopped f)
    (hk : k ≠ 18) (hk' : k + 1 = k') :
    (f.result.Clean → exec .tick s = .next { f.result with op := { f.result.op with slot := k' } })
    ∧ (¬ f.result.Clean → exec .tick s = .next f.result) := by
  rcases hclean with ⟨u, rfl, hfaults, hrefused⟩ | ⟨u, rfl, hdirty⟩
  · refine ⟨fun _ => ?_, fun hnot => absurd ⟨hfaults, hrefused⟩ hnot⟩
    rw [exec_tick_of_go h hf, if_neg hk, hk']
    rfl
  · refine ⟨fun hc => ?_, fun _ => exec_tick_of_stop h hf⟩
    rcases hdirty with hfaults | hrefused
    · exact absurd hc.faults hfaults
    · exact absurd hc.refused hrefused

/-! ### The quiet slots -/

/-- Slots 5 to 8 and 12 to 18 do nothing (R208, R211). -/
theorem slotAction_quiet {k : Nat} (h : (5 ≤ k ∧ k ≤ 8) ∨ (12 ≤ k ∧ k ≤ 18)) (m : OMode) (s : State) :
    slotAction k m s = .go s := by
  unfold slotAction
  split
  case h_9 => rfl
  all_goals omega

/-- Settles O50: each of these actions goes on. -/
theorem quietSlots : Obligations.QuietSlots := by
  intro k m s h
  refine ⟨?refresh, ?free, fun hquiet => exec_tick_of_go h (slotAction_quiet hquiet m s)⟩
  case refresh => rintro rfl; exact exec_tick_of_go h rfl
  case free => rintro rfl; exact exec_tick_of_go h rfl

/-! ### The sending slots -/

/-- Settles O51: each of these actions is one transport call, which a clean state leaves clean unless the step
ended. -/
theorem sendingSlots : Obligations.SendingSlots := by
  intro k m s s' i h hclean
  rintro (⟨rfl, rfl, rfl⟩ | ⟨rfl, rfl, rfl⟩ | ⟨rfl, rfl, rfl⟩)
  · refine ⟨_, exec_tWrite _ _ _, exec_tick_of_cleanUnlessStopped h rfl ?_ (by decide) rfl⟩
    exact transportWrite_clean _ _ hclean.faults hclean.refused
  · refine ⟨_, exec_tRead _ _, exec_tick_of_cleanUnlessStopped h rfl ?_ (by decide) rfl⟩
    exact transportRead_clean _ hclean.faults hclean.refused
  · refine ⟨_, exec_tWrite _ _ _, exec_tick_of_cleanUnlessStopped h rfl ?_ (by decide) rfl⟩
    exact transportWrite_clean _ _ hclean.faults hclean.refused

/-! ### Readings -/

theorem travelDir_eq (s : State) : travelDir s = if s.desk.mode = .operation .movingUp then .up
    else if s.desk.mode = .operation .movingDown then .down else s.op.moveDir := by
  rcases travelDir_cases s with ⟨hup, h⟩ | ⟨hdown, h⟩ | ⟨hup, hdown, h⟩ <;> rw [h]
  · rw [if_pos hup]
  · rw [if_neg (by simp [hdown]), if_pos hdown]
  · rw [if_neg hup, if_neg hdown]

theorem travelDir_of_operation {m : OMode} {s : State} (h : s.desk.mode = .operation m) :
    travelDir s = if m = .movingUp then .up else if m = .movingDown then .down else s.op.moveDir := by
  simp only [travelDir_eq, h, Mode.operation.injEq]

/-- The record of a motor after a reading of at least three bytes (R95). -/
def MotorRecord.read (m : MotorRecord) (lo hi code : Byte) : MotorRecord :=
  { m with pos := hi ++ lo, state := code, outage := 0 }

/-- The record of a motor after a reading that is too short, with R7's outage limit. -/
def MotorRecord.missed (m : MotorRecord) : MotorRecord :=
  { m with outage := if m.outage = 255 then 255 else m.outage + 1 }

theorem readingOf_cons (c : Config) (lo hi code : Byte) (more : List Byte) (m : MotorRecord) :
    readingOf c (lo :: hi :: code :: more) m = m.read lo hi code := rfl

/-- The outage count saturates (R205). -/
theorem readingOf_of_short {c : Config} (hcfg : c.tableValues = true) {r : List Byte} (h : r.length < 3)
    (m : MotorRecord) : readingOf c r m = m.missed := by
  obtain ⟨-, -, -, -, -, -, -, -, -, -, -, -, -, -, -, hmax, -⟩ := tableValues_fields hcfg
  have hcount : BitVec.ofNat 8 (min c.outageMax (m.outage.toNat + 1))
      = if m.outage = 255 then 255 else m.outage + 1 := by
    rw [hmax]
    split <;> bv_omega
  rcases readingOf_cases c r m with ⟨lo, hi, code, more, rfl, -⟩ | ⟨-, hr⟩
  · simp only [List.length_cons] at h; omega
  · rw [hr, hcount, MotorRecord.missed]

theorem process_of_short {s : State} (hcfg : s.cfg.tableValues = true) (u : Fin 2) {r : List Byte}
    (h : r.length < 3) : process u r s = s.withMotor (s.motor.set u s.motor[u].missed) := by
  rw [process, if_neg (by omega), readingOf_of_short hcfg h]

/-- A full reading is examined for a blocked report (R205, R206). -/
theorem process_cons (u : Fin 2) (lo hi code : Byte) (more : List Byte) (s : State) :
    process u (lo :: hi :: code :: more) s
      = if s.desk.mode.moving = true ∧ code ∈ s.cfg.blockedStates
        then enterRescue (s.withMotor (s.motor.set u (s.motor[u].read lo hi code)))
        else s.withMotor (s.motor.set u (s.motor[u].read lo hi code)) := by
  have hblocked : blockedWhileMoving (s.withMotor (s.motor.set u (s.motor[u].read lo hi code))) u = true
      ↔ s.desk.mode.moving = true ∧ code ∈ s.cfg.blockedStates := by
    simp [blockedWhileMoving, isBlocked, MotorRecord.read, and_comm]
  simp only [process, readingOf_cons, detect, hblocked, List.length_cons]
  exact if_pos (by omega)

theorem process_of_unblocked {s : State} {code : Byte}
    (h : s.desk.mode.moving = false ∨ code ∉ s.cfg.blockedStates) (u : Fin 2) (lo hi : Byte)
    (more : List Byte) :
    process u (lo :: hi :: code :: more) s = s.withMotor (s.motor.set u (s.motor[u].read lo hi code)) := by
  refine (process_cons u lo hi code more s).trans (if_neg ?_)
  rintro ⟨hmoving, hblocked⟩
  rcases h with hstill | hfree
  · rw [hstill] at hmoving; cases hmoving
  · exact hfree hblocked

/-- A blocked report while moving enters Rescue, and saves the direction of travel of mode `m` (R206). -/
theorem process_of_blocked {m : OMode} {s : State} {code : Byte} (hmode : s.desk.mode = .operation m)
    (hmoving : s.desk.mode.moving = true) (hblocked : code ∈ s.cfg.blockedStates) (u : Fin 2)
    (lo hi : Byte) (more : List Byte) :
    process u (lo :: hi :: code :: more) s = { s with
      motor := s.motor.set u (s.motor[u].read lo hi code)
      desk := { s.desk with mode := .operation .rescue }
      op := { s.op with
        rescueT := 0
        faultDir := if m = .movingUp then .up else if m = .movingDown then .down else s.op.moveDir } } := by
  rw [process_cons, if_pos ⟨hmoving, hblocked⟩, ← travelDir_of_operation hmode]
  rfl

/-- Settles O52: T_GETRX's effect and then `process` on what it returned. -/
theorem readingAtSlot3 : Obligations.ReadingAtSlot3 := by
  intro m s h
  have ⟨hcfg, hmode, _⟩ := h
  obtain ⟨v, hv⟩ := transportGetRx_snd s
  have haction : slotAction 3 m s = .go (process 1 (transportGetRx s).1 (transportGetRx s).2) := rfl
  have htick := exec_tick_of_go h haction
  have hget := exec_tGetRx s
  rw [hv] at htick hget
  refine ⟨_, (transportGetRx s).1, hget, rfl,
    fun lo hi code more hr => ⟨fun hfree => ?unblocked, fun hmoving hblocked => ?blocked⟩, fun hr => ?short⟩
  case unblocked => rw [htick, hr, process_of_unblocked (s := s.withT v) hfree]; rfl
  case blocked => rw [htick, hr, process_of_blocked (s := s.withT v) hmode hmoving hblocked]; rfl
  case short => rw [htick, process_of_short (s := s.withT v) hcfg _ hr]; rfl

/-- Slot 2 is slot 3's `process` for the left motor, then T_READ at the right motor's address, which a reading
keeps (R203). -/
theorem slotAction_two (m : OMode) (s : State) : slotAction 2 m s
    = transportRead s.motor[1].addr (process 0 (transportGetRx s).1 (transportGetRx s).2) := by
  have collected := (OnlyTransport.ofGetRx s).operationFrame
  have frame := collected.trans (operationFrame_process 0 (transportGetRx s).1 (transportGetRx s).2)
  exact congrArg (transportRead · _) (frame.motor 1 (by decide)).addr

/-- Settles O53: T_GETRX's effect, then `process` on what it returned, then T_READ in the state that leaves. -/
theorem readingAtSlot2 : Obligations.ReadingAtSlot2 := by
  intro m s h hclean
  have ⟨hcfg, hmode, _⟩ := h
  obtain ⟨v, hv⟩ := transportGetRx_snd s
  have haction := slotAction_two m s
  have hget := exec_tGetRx s
  rw [hv] at haction hget
  have same := SameTransport.ofProcess 0 (transportGetRx s).1 (s.withT v)
  refine ⟨_, (transportGetRx s).1, process 0 (transportGetRx s).1 (s.withT v), _, hget, rfl,
    fun lo hi code more hr => ⟨fun hfree => ?unblocked, fun hmoving hblocked => ?blocked⟩, fun hr => ?short,
    exec_tRead _ _, exec_tick_of_cleanUnlessStopped h haction ?poll (by decide) rfl⟩
  case unblocked => rw [hr, process_of_unblocked (s := s.withT v) hfree]; rfl
  case blocked => rw [hr, process_of_blocked (s := s.withT v) hmode hmoving hblocked]; rfl
  case short => rw [process_of_short (s := s.withT v) hcfg _ hr]; rfl
  case poll =>
    exact transportRead_clean _ (same.faults.trans hclean.faults) (same.refused.trans hclean.refused)

/-! ### Entering Rescue -/

/-- From `s`, motor `u`'s blocked report has brought the block to Rescue in `t` (R206, R300). -/
structure EnteredRescue (u : Fin 2) (s t : State) : Prop where
  moving : s.desk.mode.moving = true
  op : t.op = { s.op with slot := t.op.slot, rescueT := 0, faultDir := travelDir s }
  desk : t.desk = { s.desk with mode := .operation .rescue }
  blocked : t.motor[u].state ∈ s.cfg.blockedStates
  valid : t.motor[u].outage = 0

theorem EnteredRescue.withSlot {u : Fin 2} {s t : State} (h : EnteredRescue u s t) (k : BitVec 5) :
    EnteredRescue u s (t.withOp { t.op with slot := k }) :=
  ⟨h.moving, congrArg (fun o : Operation => { o with slot := k }) h.op, h.desk, h.blocked, h.valid⟩

/-- Transport calls before and after a reading have no part in it. -/
theorem EnteredRescue.ofTransport {u : Fin 2} {s s' t' t : State} (hs : OnlyTransport s s')
    (h : EnteredRescue u s' t') (ht : OnlyTransport t' t) : EnteredRescue u s t := by
  rw [hs.rest] at h
  rw [ht.rest]
  exact ⟨h.moving, h.op, h.desk, h.blocked, h.valid⟩

/-- `process` brings Rescue on a blocked report while moving only (R206). -/
theorem enteredRescue_process {u : Fin 2} {r : List Byte} {s : State}
    (hs : s.desk.mode ≠ .operation .rescue) (h : (process u r s).desk.mode = .operation .rescue) :
    EnteredRescue u s (process u r s) := by
  rcases process_cases u r s with hp | ⟨hlen, hmoving, -, hp⟩
  · rw [hp] at h; exact absurd h hs
  · match r, hlen with
    | lo :: hi :: code :: more, _ =>
      rw [process_cons] at h ⊢
      split at h
      case isTrue hb =>
        rw [if_pos hb]
        refine ⟨hmoving, rfl, rfl, ?_, ?_⟩ <;> simp [enterRescue_eq, MotorRecord.read, hb.2]
      case isFalse => exact absurd h hs

/-- The desk is not in Rescue. -/
def OutsideRescue (s : State) : Prop := s.desk.mode ≠ .operation .rescue

theorem OutsideRescue.ite {c : Prop} [Decidable c] {s t : State} (hs : OutsideRescue s)
    (ht : OutsideRescue t) : OutsideRescue (if c then s else t) := by
  split
  · exact hs
  · exact ht

theorem outsideRescue_setOMode {m : OMode} (hm : m ≠ .rescue) (s : State) : OutsideRescue (setOMode m s) :=
  fun h => hm (Mode.operation.inj h)

/-- No transition of the desk state machine goes to Rescue: R8 (d) keeps O.Begin from it. -/
theorem outsideRescue_dsmTransition {m : OMode} {s : State} (hcfg : configWellFormed s.cfg = true)
    (hm : m ≠ .rescue) (h : OutsideRescue s) : OutsideRescue (dsmTransition m s) := by
  obtain ⟨-, -, -, ⟨-, -, -, hnext⟩, -⟩ := (configWellFormed_iff s.cfg).1 hcfg
  have entered {m' : OMode} (hm' : m' ≠ .rescue) (u : State) : OutsideRescue (setOMode m' u) :=
    outsideRescue_setOMode hm' u
  cases m with
  | begin => refine entered ?_ _; split; exacts [hnext, by decide]
  | normal => exact .ite (entered (by decide) _) h
  | announcing =>
    exact .ite (entered (by decide) _) (.ite (entered (by decide) _)
      (.ite (entered (by decide) _) (entered (by decide) _)))
  | movingUp => exact .ite (entered (by decide) _) h
  | movingDown => exact .ite (entered (by decide) _) h
  | movingSlow => exact .ite (entered (by decide) _) h
  | movingStop => exact entered (by decide) _
  | calibrating => exact .ite (entered (by decide) _) h
  | calibratingDone => exact entered (by decide) _
  | rescue => exact absurd rfl hm

theorem outsideRescue_dsmStep {m : OMode} {s : State} (hcfg : configWellFormed s.cfg = true)
    (hm : m ≠ .rescue) (h : OutsideRescue s) : OutsideRescue (dsmStep m s) := by
  have moved := outsideRescue_dsmTransition hcfg hm h
  rcases dsmStep_cases m s with hd | ⟨m', -, hd⟩ <;> rw [hd] <;> exact moved

theorem OutsideRescue.ofTransport {s t : State} (h : OutsideRescue s) (ht : OnlyTransport s t) :
    OutsideRescue t := by
  rw [ht.rest]; exact h

/-- Only the slots that collect a reading can enter Rescue (R203, R204). -/
theorem enteredRescue_slotAction {k : Nat} {m : OMode} {s : State} (hcfg : configWellFormed s.cfg = true)
    (hmode : s.desk.mode = .operation m) (hs : OutsideRescue s)
    (h : (slotAction k m s).result.desk.mode = .operation .rescue) :
    (k = 2 ∧ EnteredRescue 0 s (slotAction k m s).result)
    ∨ (k = 3 ∧ EnteredRescue 1 s (slotAction k m s).result) := by
  have hm : m ≠ .rescue := by rintro rfl; exact hs hmode
  have collected := OnlyTransport.ofGetRx s
  unfold slotAction at h ⊢
  split at h
  case h_1 =>
    have busy : OutsideRescue (s.withDesk { s.desk with busy := true }) := hs
    exact absurd h (busy.ofTransport (.ofWrite _ _ _))
  case h_2 => exact absurd h (hs.ofTransport (.ofRead _ s))
  case h_3 =>
    have polled := OnlyTransport.ofRead (process 0 (transportGetRx s).1 (transportGetRx s).2).motor[1].addr
      (process 0 (transportGetRx s).1 (transportGetRx s).2)
    have entered := enteredRescue_process (hs.ofTransport collected)
      (Decidable.byContradiction fun hout => OutsideRescue.ofTransport hout polled h)
    exact .inl ⟨rfl, .ofTransport collected entered polled⟩
  case h_4 =>
    exact .inr ⟨rfl, .ofTransport collected (enteredRescue_process (hs.ofTransport collected) h) (.refl _)⟩
  case h_5 => exact absurd h hs
  case h_6 => exact absurd h (outsideRescue_dsmStep hcfg hm hs)
  case h_7 => exact absurd h (hs.ofTransport (.ofWrite _ _ s))
  case h_8 => exact absurd h hs
  case h_9 => exact absurd h hs

/-- A step of the operation cycle enters Rescue in its slot's action. -/
theorem enteredRescue_operationStep {m : OMode} {s : State} (hcfg : configWellFormed s.cfg = true)
    (hmode : s.desk.mode = .operation m) (hs : OutsideRescue s)
    (h : (operationStep m s).result.desk.mode = .operation .rescue) :
    (s.op.slot = 2 ∧ EnteredRescue 0 s (operationStep m s).result)
    ∨ (s.op.slot = 3 ∧ EnteredRescue 1 s (operationStep m s).result) := by
  have action := enteredRescue_slotAction (k := s.op.slot.toNat) hcfg hmode hs
  rcases operationStep_result m s with he | he <;> rw [he] at h ⊢
  · exact (action h).imp (.imp_left BitVec.eq_of_toNat_eq) (.imp_left BitVec.eq_of_toNat_eq)
  · exact (action h).imp (.imp BitVec.eq_of_toNat_eq (·.withSlot _))
      (.imp BitVec.eq_of_toNat_eq (·.withSlot _))

/-- Settles O16: of the instructions only a TICK of the operation cycle can enter Rescue, in slot 2 or 3. -/
theorem rescueEntry : Obligations.RescueEntry := by
  intro i s t hcfg hexec hs ht
  cases execNext hexec with
  | request h => exact absurd (h.mode.symm.trans ht) hs
  | start _ h => rw [h] at ht; cases ht
  | restart _ _ _ _ h => rw [h] at ht; cases ht
  | transport h =>
    obtain ⟨-, -, hdesk, -⟩ := h.same
    exact absurd (hdesk ▸ ht) hs
  | tick h =>
    rcases tickBody_cases s with ⟨-, he⟩ | ⟨S, hS, he⟩ | ⟨m, hm, he⟩ <;> rw [he] at h
    · rw [h] at ht; exact absurd ht hs
    · obtain ⟨hstays, -⟩ := discoveryStep_mode_busy hS
      rw [← h] at hstays
      rcases hstays with ⟨S', hS'⟩ | ⟨hbegin, -⟩
      · rw [hS'] at ht; cases ht
      · rw [hbegin] at ht; cases ht
    · rw [h] at ht ⊢
      rw [← travelDir_eq]
      rcases enteredRescue_operationStep hcfg hm hs ht with ⟨hslot, entered⟩ | ⟨hslot, entered⟩
      · obtain ⟨hmoving, hop, hdesk, hblocked, hvalid⟩ := entered
        exact ⟨rfl, hmoving, hop, hdesk, .inl ⟨hslot, hblocked, hvalid⟩⟩
      · obtain ⟨hmoving, hop, hdesk, hblocked, hvalid⟩ := entered
        exact ⟨rfl, hmoving, hop, hdesk, .inr ⟨hslot, hblocked, hvalid⟩⟩

end Sys2Proof.Machine
end

section
/-! PROOFS. The desk state machine at slot 9 (42_operation.md R209, R212 to R227): the transition of the mode, then
the command of the mode after it, so each mode's statement is its transition's branches; and the synchronised
position that the commands carry (R224). -/

namespace Sys2Proof.Machine

/-! ### The synchronised position -/

theorem validReading_iff (m : MotorRecord) : validReading m = true ↔ m.outage = 0 := by
  simp [validReading]

theorem validReading_eq_false_iff (m : MotorRecord) : validReading m = false ↔ m.outage ≠ 0 := by
  simp [validReading]

/-- The four cases of `posSel_cases` by the outage counts. -/
theorem posSel_eq (dir : Dir) (s : State) : posSel dir s =
    if s.motor[0].outage = 0 then
      if s.motor[1].outage = 0 then
        if dir = .up then posMin s.motor[0].pos s.motor[1].pos else posMax s.motor[0].pos s.motor[1].pos
      else s.motor[0].pos
    else if s.motor[1].outage = 0 then s.motor[1].pos else s.op.cmdPos := by
  rcases posSel_cases dir s with ⟨hl, hr, h⟩ | ⟨hl, hr, h⟩ | ⟨hl, hr, h⟩ | ⟨hl, hr, h⟩ <;>
    simp only [validReading_iff, validReading_eq_false_iff] at hl hr <;> rw [h]
  · rw [if_pos hl, if_pos hr]
  · rw [if_pos hl, if_neg hr]
  · rw [if_neg hl, if_pos hr]
  · rw [if_neg hl, if_neg hr]

/-- Settles O54, by `posSel_eq`. -/
theorem synchronisedPosition : Obligations.SynchronisedPosition := by
  intro s
  refine ⟨fun hl hr => ⟨?lower, ?higher⟩, fun hl hr d => ?left, fun hl hr d => ?right, fun hl hr d => ?held⟩
  case lower => rw [posSel_eq, if_pos hl, if_pos hr, if_pos rfl, posMin_toNat]
  case higher => rw [posSel_eq, if_pos hl, if_pos hr, if_neg (by decide), posMax_toNat]
  case left => rw [posSel_eq, if_pos hl, if_neg hr]
  case right => rw [posSel_eq, if_neg hl, if_pos hr]
  case held => rw [posSel_eq, if_neg hl, if_neg hr]

/-! ### Slot 9 -/

/-- At slot 9 the desk state machine steps, and the slot advances. -/
theorem exec_tick_at_slot9 {m : OMode} {s : State} (h : Claims.AtSlot 9 m s) :
    exec .tick s = .next ((dsmStep m s).withOp { (dsmStep m s).op with slot := 10 }) :=
  exec_tick_of_go h rfl

/-- The step gives the command of the mode after the transition, unless Rescue goes on (R212). -/
theorem dsmStep_of_transition {m m' : OMode} {s t : State} (ht : dsmTransition m s = t)
    (hm' : t.desk.mode = .operation m') (hr : ¬ (m = .rescue ∧ m' = .rescue)) :
    dsmStep m s = setCommand m' t := by
  subst ht
  simp only [dsmStep, hm', if_neg hr]

/-- Slot 9 of a mode whose transition leads to `t`, with the command of `t`'s mode in `t`. -/
theorem exec_tick_of_transition {m m' : OMode} {s t : State} (h : Claims.AtSlot 9 m s)
    (ht : dsmTransition m s = t) (hm' : t.desk.mode = .operation m') (hr : ¬ (m = .rescue ∧ m' = .rescue)) :
    exec .tick s = .next { t with
      op := { t.op with slot := 10, cmdInstr := instrOf m' t, cmdPos := posOf m' t } } := by
  rw [exec_tick_at_slot9 h, dsmStep_of_transition ht hm' hr]
  rfl

/-! ### O.Begin -/

/-- The command table agrees with `instr_of` and `pos_of` (R223, R225); Rescue has no row. -/
theorem command_of_modeCommand {m : OMode} {s : State} {instr : Byte} {pos : Pos}
    (h : Claims.modeCommand s m = some (instr, pos)) : instrOf m s = instr ∧ posOf m s = pos := by
  cases m with
  | rescue => cases h
  | begin | normal | announcing | movingUp | movingDown | movingSlow | movingStop | calibrating
  | calibratingDone => cases h; exact ⟨rfl, rfl⟩

/-- The command looks at neither the target nor the mode register. -/
theorem modeCommand_setOMode_snapTarget (m m' : OMode) (s : State) :
    Claims.modeCommand (setOMode m' (snapTarget s)) m = Claims.modeCommand s m := by
  cases m <;> rfl

theorem modeCommand_isSome {m : OMode} (h : m ≠ .rescue) (s : State) :
    (Claims.modeCommand s m).isSome = true := by
  cases m with
  | rescue => exact absurd rfl h
  | begin | normal | announcing | movingUp | movingDown | movingSlow | movingStop | calibrating
  | calibratingDone => rfl

theorem atLimit_iff (k : Desk) (x : Pos) :
    atLimit k x = true ↔ x.toNat ≤ k.lower.toNat ∨ k.upper.toNat ≤ x.toNat := decide_eq_true_iff

/-- Settles O55, by whether the position is at a limit. -/
theorem deskBeginResult : Obligations.DeskBeginResult := by
  intro s h
  refine ⟨fun hinside => ?inside, fun hlimit instr pos hcommand => ?limit, fun hcfg => ?row⟩
  case inside =>
    have ht : dsmBegin s = setOMode .normal (snapTarget s) := by
      rw [dsmBegin, if_neg (mt (atLimit_iff _ _).1 hinside)]
    exact exec_tick_of_transition h ht rfl (by decide)
  case limit =>
    have ht : dsmBegin s = setOMode s.cfg.beginAtLimitNext (snapTarget s) := by
      rw [dsmBegin, if_pos ((atLimit_iff _ _).2 hlimit)]
    rw [← modeCommand_setOMode_snapTarget _ s.cfg.beginAtLimitNext] at hcommand
    obtain ⟨rfl, rfl⟩ := command_of_modeCommand hcommand
    exact exec_tick_of_transition h ht rfl (by simp)
  case row =>
    obtain ⟨-, -, -, ⟨-, -, -, hnext⟩, -⟩ := (configWellFormed_iff s.cfg).1 hcfg
    exact modeCommand_isSome hnext s

/-! ### O.Normal and O.Announcing -/

/-- What takes O.Normal to O.Announcing (R214). -/
theorem announces_iff (s : State) :
    (s.desk.calibReq || !withinStopDist s.cfg s.desk.target s.desk.current) = true
      ↔ s.desk.calibReq = true ∨ ¬ Claims.Near s.cfg s.desk.target s.desk.current := by
  rw [Bool.or_eq_true, Bool.not_eq_true', ← Bool.not_eq_true, withinStopDist_iff, Claims.Near]

/-- Settles O56, by the test of R214. -/
theorem deskNormalResult : Obligations.DeskNormalResult := by
  intro s h
  have ⟨_, hmode, _⟩ := h
  split
  case isTrue hgo => exact exec_tick_of_transition h (if_pos ((announces_iff s).2 hgo)) rfl (by decide)
  case isFalse hstay =>
    exact exec_tick_of_transition h (if_neg (mt (announces_iff s).1 hstay)) hmode (by decide)

/-- Settles O57, by the branches of R215. -/
theorem deskAnnouncingResult : Obligations.DeskAnnouncingResult := by
  intro s h
  have leads {t : State} {m' : OMode} (ht : dsmAnnouncing s = t) (hm' : t.desk.mode = .operation m') :=
    exec_tick_of_transition h ht hm' (by simp)
  split
  case isTrue hcalib => exact leads (if_pos hcalib) rfl
  case isFalse hcalib =>
    split
    case isTrue hup => exact leads ((if_neg hcalib).trans (if_pos hup)) rfl
    case isFalse hup =>
      split
      case isTrue hdown => exact leads ((if_neg hcalib).trans ((if_neg hup).trans (if_pos hdown))) rfl
      case isFalse hdown => exact leads ((if_neg hcalib).trans ((if_neg hup).trans (if_neg hdown))) rfl

/-! ### The moving modes -/

/-- Settles O58, by the signed distance of R216 and R217. -/
theorem deskMovingResult : Obligations.DeskMovingResult := by
  intro s
  have near_iff (x y : Pos) := remainingAtMostStop_iff s.cfg x y
  refine ⟨fun h => ?up, fun h => ?down⟩
  case up =>
    have ⟨_, hmode, _⟩ := h
    split
    case isTrue hnear => exact exec_tick_of_transition h (if_pos ((near_iff _ _).2 hnear)) rfl (by decide)
    case isFalse hfar => exact exec_tick_of_transition h (if_neg (mt (near_iff _ _).1 hfar)) hmode (by decide)
  case down =>
    have ⟨_, hmode, _⟩ := h
    split
    case isTrue hnear => exact exec_tick_of_transition h (if_pos ((near_iff _ _).2 hnear)) rfl (by decide)
    case isFalse hfar => exact exec_tick_of_transition h (if_neg (mt (near_iff _ _).1 hfar)) hmode (by decide)

/-! ### Stopping and calibrating -/

/-- O.MovingSlow counts, and is left at the third step (R218). -/
theorem dsmMovingSlow_eq {s : State} (hcfg : s.cfg.tableValues = true) (hslow : s.op.slowCnt.toNat < 3) :
    dsmMovingSlow s = if s.op.slowCnt = 2
      then setOMode .movingStop (s.withOp { s.op with slowCnt := s.op.slowCnt + 1 })
      else s.withOp { s.op with slowCnt := s.op.slowCnt + 1 } := by
  obtain ⟨-, -, -, hdwell, -⟩ := tableValues_fields hcfg
  have hcount : BitVec.ofNat 2 (s.op.slowCnt.toNat + 1) = s.op.slowCnt + 1 := by bv_omega
  have hlast : 3 ≤ s.op.slowCnt.toNat + 1 ↔ s.op.slowCnt = 2 := by bv_omega
  simp only [dsmMovingSlow, State.withOp_cfg, hdwell, hcount, hlast]

theorem bothCalibrated_iff (s : State) : bothCalibrated s = true
    ↔ s.motor[0].state = s.cfg.stateCalibrated ∧ s.motor[1].state = s.cfg.stateCalibrated := by
  simp [bothCalibrated]

/-- A mode that stays is the register's own value. -/
theorem Desk.mode_self {k : Desk} {m : Mode} (h : k.mode = m) : { k with mode := m } = k := by
  subst h; rfl

/-- Settles O59, mode by mode. -/
theorem deskStoppingAndCalibrating : Obligations.DeskStoppingAndCalibrating := by
  intro s
  refine ⟨fun h hslow => ?slow, ?stop, fun h => ?calibrating⟩
  case slow =>
    have ⟨hcfg, hmode, _⟩ := h
    have ht := dsmMovingSlow_eq hcfg hslow
    by_cases htwo : s.op.slowCnt = 2
    · rw [if_pos htwo] at ht ⊢
      rw [if_pos htwo]
      exact exec_tick_of_transition h ht rfl (by decide)
    · rw [if_neg htwo] at ht ⊢
      rw [if_neg htwo, Desk.mode_self hmode]
      exact exec_tick_of_transition h ht hmode (by decide)
  case stop =>
    rintro (h | h)
    · exact exec_tick_of_transition h rfl rfl (by decide)
    · exact exec_tick_of_transition h rfl rfl (by decide)
  case calibrating =>
    have ⟨_, hmode, _⟩ := h
    split
    case isTrue hboth =>
      exact exec_tick_of_transition h (if_pos ((bothCalibrated_iff s).2 hboth)) rfl (by decide)
    case isFalse hnot =>
      exact exec_tick_of_transition h (if_neg (mt (bothCalibrated_iff s).1 hnot)) hmode (by decide)

/-! ### O.Rescue -/

theorem Dir.reverse_eq (d : Dir) : d.reverse = if d = .up then .down else .up := by cases d <;> rfl

theorem driveInstr_reverse (c : Config) (d : Dir) :
    driveInstr c d.reverse = if d = .up then c.instrDown else c.instrUp := by cases d <;> rfl

/-- The phases of `rescue_instr` are those of R222's table. -/
theorem rescueCommand_rescueInstr (c : Config) (d : Dir) (r : Nat) :
    Claims.RescueCommand c d r (rescueInstr c r d.reverse) := by
  unfold rescueInstr
  rw [driveInstr_reverse]
  refine ⟨fun h => if_pos h, fun hlow hhigh => ?drive, fun hlow hhigh => ?slow, fun hlow hhigh => ?stop,
    fun h => ?announce, fun hlow hhigh => ?idle⟩
  case drive => rw [if_neg (by omega), if_pos hhigh]
  case slow => rw [if_neg (by omega), if_neg (by omega), if_pos hhigh]
  case stop => rw [if_neg (by omega), if_neg (by omega), if_neg (by omega), if_pos hhigh]
  case announce =>
    rw [if_neg (by omega), if_neg (by omega), if_neg (by omega), if_neg (by omega), if_pos (by omega)]
  case idle =>
    rw [if_neg (by omega), if_neg (by omega), if_neg (by omega), if_neg (by omega), if_neg (by omega),
      if_pos (by omega)]

/-- While Rescue goes on, its transition has set the command itself (R212, R222). -/
theorem dsmStep_rescue_of_ne {s : State} (hmode : s.desk.mode = .operation .rescue)
    (h : s.op.rescueT.toNat + 1 ≠ s.cfg.rescueLen) :
    dsmStep .rescue s = s.withOp { s.op with
      rescueT := s.op.rescueT + 1
      cmdInstr := rescueInstr s.cfg s.op.rescueT.toNat s.op.faultDir.reverse
      cmdPos := posSel s.op.faultDir.reverse s } := by
  simp [dsmStep, dsmTransition, dsmRescue, if_neg h, hmode]

/-- Settles O60, by whether the last rescue-tick has come. -/
theorem deskRescueResult : Obligations.DeskRescueResult := by
  intro s h
  have ⟨hcfg, hmode, _⟩ := h
  obtain ⟨-, -, -, -, -, -, -, -, -, hlen, -⟩ := tableValues_fields hcfg
  refine ⟨fun hmore => ⟨_, rescueCommand_rescueInstr _ _ _, ?goesOn⟩, fun hlast => ?returns⟩
  case goesOn =>
    rw [exec_tick_at_slot9 h, dsmStep_rescue_of_ne hmode (by omega), Dir.reverse_eq]
    rfl
  case returns =>
    have hend : s.op.rescueT.toNat + 1 = s.cfg.rescueLen := by rw [hlast, hlen]; rfl
    exact exec_tick_of_transition h (if_pos hend) rfl (by decide)

end Sys2Proof.Machine
end

section
/-! PROOFS. The facade (43_facade.md): INIT and START_DISCOVERY (R251, R252), the per-motor queries (R259), the
three requests (R260 to R264) and the reserved opcodes (R271), each command with its exact next state. -/

namespace Sys2Proof.Machine

/-! ### INIT -/

/-- The reset values are the cleared ones (R51). -/
theorem cleared_resetRegisters (s : State) : Claims.Cleared (resetRegisters s) :=
  ⟨fun _ h => Vector.getElem_replicate h, fun _ h => Vector.getElem_replicate h, rfl, rfl, rfl⟩

theorem transportCleared_atReset (bus : BusState) (inflight : Bool) : Claims.TransportCleared bus inflight
    { Transport.atReset with busState := bus, txInflight := inflight } :=
  ⟨fun _ h => Vector.getElem_replicate h, fun _ h => Vector.getElem_replicate h,
    rfl, rfl, rfl, rfl, rfl, rfl, rfl, rfl⟩

/-- Settles O23: INIT resets the registers, then writes the bus state and gives the symbol in flight back. -/
theorem initResult : Obligations.InitResult := fun _ s =>
  ⟨_, rfl, cleared_resetRegisters s, transportCleared_atReset _ _, ⟨rfl, rfl, rfl, rfl⟩, rfl⟩

/-! ### START_DISCOVERY -/

/-- Settles O25, by the three answers of R251. -/
theorem startDiscoveryResult : Obligations.StartDiscoveryResult := by
  intro s
  rcases execStartDiscovery_cases s with ⟨hbus, h⟩ | ⟨hbus, hbusy, h⟩ | ⟨hbus, hbusy, h⟩
  · rw [if_pos hbus]; exact h
  · rw [if_neg hbus, if_pos hbusy]; exact h
  · rw [if_neg hbus, if_neg (by simp [hbusy])]; exact h

/-! ### The per-motor queries -/

section
variable {s : State} {u : BitVec 8}

theorem answer_motorField8_of_some {m : MotorRecord} (h : motorOfUnit s u = some m) (field : MotorRecord → Byte) :
    answer .ok (motorField8 field u s) s = .next (s.withResp (some ((field m).setWidth 32))) := by
  rw [answer_ok, motorField8, h, BitVec.setWidth_setWidth (by decide)]

theorem answer_motorField16_of_some {m : MotorRecord} (h : motorOfUnit s u = some m) (field : MotorRecord → Pos) :
    answer .ok (motorField16 field u s) s = .next (s.withResp (some ((field m).setWidth 32))) := by
  rw [answer_ok, motorField16, h]

theorem answer_motorField8_of_none (h : motorOfUnit s u = none) (hsentinel : s.cfg.sentinel8 = 0xFF)
    (field : MotorRecord → Byte) :
    answer .ok (motorField8 field u s) s = .next (s.withResp (some 0x000000FF)) := by
  rw [answer_ok, motorField8, h, hsentinel]
  rfl

theorem answer_motorField16_of_none (h : motorOfUnit s u = none) (hsentinel : s.cfg.sentinel16 = 0xFFFF)
    (field : MotorRecord → Pos) :
    answer .ok (motorField16 field u s) s = .next (s.withResp (some 0x0000FFFF)) := by
  rw [answer_ok, motorField16, h, hsentinel]
  rfl

/-- A LIN address is answered as a byte (R269), which adds no bits to it. -/
theorem answer_motorAddress_of_some {m : MotorRecord} (h : motorOfUnit s u = some m) :
    execGetMotorAddress u s = .next (s.withResp (some (m.addr.setWidth 32))) := by
  rw [execGetMotorAddress, answer_motorField8_of_some h, BitVec.setWidth_setWidth (by decide)]

end

/-- Settles O27, by whether the unit is a motor's. -/
theorem motorQueryResults : Obligations.MotorQueryResults := by
  intro u s hcfg
  obtain ⟨-, -, -, -, -, -, -, -, -, -, hcount, -, -, -, -, -, hbyte, hword⟩ := tableValues_fields hcfg
  refine ⟨fun k hk hu => ?motor, fun hu => ?sentinel⟩
  case motor =>
    have hm := motorOfUnit_some hk hu hcount
    exact ⟨answer_motorField8_of_some hm _, answer_motorField16_of_some hm _, answer_motorField16_of_some hm _,
      answer_motorField16_of_some hm _, answer_motorAddress_of_some hm, answer_motorField8_of_some hm _⟩
  case sentinel =>
    have hm := motorOfUnit_none hu hcount
    exact ⟨answer_motorField8_of_none hm hbyte _, answer_motorField16_of_none hm hword _,
      answer_motorField16_of_none hm hword _, answer_motorField16_of_none hm hword _,
      answer_motorField8_of_none hm hbyte _, answer_motorField8_of_none hm hbyte _⟩

/-! ### The requests -/

/-- REQUEST_CALIBRATION answers what the guard refuses with, or sets the flag (R263). -/
theorem execRequestCalibration_eq (s : State) : execRequestCalibration s = .next ((moveGuard s).elim
    (respond .ok 0 (s.withDesk { s.desk with calibReq := true })) (respond · 0 s)) := by
  unfold execRequestCalibration
  cases moveGuard s <;> rfl

/-- REQUEST_POSITION answers what the guard or then the target's check refuses with, or writes the target
(R260). -/
theorem execRequestPosition_eq (t : Pos) (s : State) : execRequestPosition t s = .next ((moveGuard s).elim
    ((targetGuard t s).elim (respond .ok 0 (s.withDesk { s.desk with target := t })) (respond · 0 s))
    (respond · 0 s)) := by
  unfold execRequestPosition
  cases moveGuard s with
  | some c => rfl
  | none => cases targetGuard t s <;> rfl

open Classical in
/-- The guard as a chain: busy, class, mode (R299). -/
theorem moveGuard_elim {α : Type} (s : State) (admitted : α) (refused : ResultCode → α) :
    (moveGuard s).elim admitted refused
      = if s.desk.busy = true then refused .busy
        else if ∀ m, s.desk.mode ≠ .operation m then refused .notReady
        else if s.desk.mode ≠ .operation .normal then refused .notIdle
        else admitted := by
  rcases moveGuard_cases s with ⟨hbusy, h⟩ | ⟨hbusy, hclass, h⟩ | ⟨hbusy, ⟨m, hmode, hne⟩, h⟩ | ⟨hbusy, hmode, h⟩
  · simp [h, hbusy]
  · simp [h, hbusy, hclass]
  · simp [h, hbusy, hmode, hne]
  · simp [h, hbusy, hmode]

open Classical in
/-- The target's checks as a chain: upper limit, lower limit, distance (R260, R261). -/
theorem targetGuard_elim {α : Type} (t : Pos) (s : State) (admitted : α) (refused : ResultCode → α) :
    (targetGuard t s).elim admitted refused
      = if s.desk.upper.toNat < t.toNat then refused .limitUpper
        else if t.toNat < s.desk.lower.toNat then refused .limitLower
        else if Claims.Near s.cfg t s.desk.current then refused .belowMinDist
        else admitted := by
  have near : withinStopDist s.cfg t s.desk.current = true ↔ Claims.Near s.cfg t s.desk.current :=
    withinStopDist_iff _ _ _
  rcases targetGuard_cases t s with ⟨hup, h⟩ | ⟨hup, hlow, h⟩ | ⟨hup, hlow, hdist, h⟩ | ⟨hup, hlow, hdist, h⟩
  · rw [h, if_pos hup]; rfl
  · rw [h, if_neg (by omega), if_pos hlow]; rfl
  · rw [h, if_neg (by omega), if_neg (by omega), if_pos (near.1 hdist)]; rfl
  · rw [h, if_neg (by omega), if_neg (by omega), if_neg (by simp [← near, hdist])]; rfl

/-- Settles O28: the guard's chain, and where it admits, the target's. -/
theorem requestPositionResult : Obligations.RequestPositionResult := by
  intro t s
  have h := execRequestPosition_eq t s
  rw [moveGuard_elim, targetGuard_elim] at h
  exact h

/-- Settles O29: the guard's chain for the one, and no check at all for the other. -/
theorem requestCalibrationAndHaltResult : Obligations.RequestCalibrationAndHaltResult := by
  intro s
  have h := execRequestCalibration_eq s
  rw [moveGuard_elim] at h
  exact ⟨h, rfl⟩

/-! ### Reserved opcodes -/

/-- An instruction of one of the eight reserved rows (R84). -/
def IsReservedOpcode (i : Instr) : Prop :=
  i = .reservedOpcode00 ∨ i = .reservedOpcode0F ∨ i = .reservedOpcode13
    ∨ (∃ k, i = .reservedOpcode14 k) ∨ (∃ k, i = .reservedOpcode18 k) ∨ (∃ k, i = .reservedOpcode20 k)
    ∨ (∃ k, i = .reservedOpcode40 k) ∨ (∃ k, i = .reservedOpcode80 k)

theorem exec_of_isReservedOpcode {i : Instr} (h : IsReservedOpcode i) (s : State) :
    exec i s = .next (s.withResp (some 0x04000000)) := by
  rcases h with rfl | rfl | rfl | ⟨k, rfl⟩ | ⟨k, rfl⟩ | ⟨k, rfl⟩ | ⟨k, rfl⟩ | ⟨k, rfl⟩ <;> rfl

/-- The reserved opcodes 0x00, 0x0F and 0x13 to 0xFF decode to the reserved rows. -/
theorem isReservedOpcode_decodeOpcode {op : BitVec 8} (unit : BitVec 8) (data : BitVec 16)
    (h : op = 0x00 ∨ op = 0x0F ∨ 0x13 ≤ op.toNat) : IsReservedOpcode (decodeOpcode op unit data) := by
  rcases h with rfl | rfl | hlo
  · exact .inl rfl
  · exact .inr (.inl rfl)
  · rcases opcode_cases op with h | h | h | h | h | h
    · obtain rfl : op = 0x13 := by bv_omega
      exact .inr (.inr (.inl rfl))
    · rw [decodeOpcode_reserved14 _ _ h]; simp [IsReservedOpcode]
    · rw [decodeOpcode_reserved18 _ _ h]; simp [IsReservedOpcode]
    · rw [decodeOpcode_reserved20 _ _ h]; simp [IsReservedOpcode]
    · rw [decodeOpcode_reserved40 _ _ h]; simp [IsReservedOpcode]
    · rw [decodeOpcode_reserved80 _ _ h]; simp [IsReservedOpcode]

/-- Settles O30: the reserved opcodes decode to the reserved rows, whose meaning is the answer. -/
theorem reservedOpcodesAnswerInvalidData : Obligations.ReservedOpcodesAnswerInvalidData :=
  ⟨fun _ s h => exec_of_isReservedOpcode (isReservedOpcode_decodeOpcode _ _ h) s,
    fun _ s h => exec_of_isReservedOpcode h s⟩

end Sys2Proof.Machine
end

section
/-! PROOFS. The exceptions (60_exceptions.md): what ends a run or leaves it waiting (R295 to R297, R321), the
requests that are refused (R294), and the ways out of Rescue (R301). -/

namespace Sys2Proof.Machine

/-! ### A step with no instruction to run -/

/-- A recorded fault is the step's outcome, whatever the refusal mark (R295). -/
theorem step_of_fault {s : State} {f : Fault} {fs : List Fault} (hfaults : s.faults = f :: fs) :
    step s = .fault f := by
  simp [step, halted, hfaults]

/-- A clean state with no input waits (R321). -/
theorem step_of_no_input {s : State} (hclean : s.Clean) (hinput : s.input = []) : step s = .next s := by
  simp [step, hclean.halted_eq_none, fetch, hinput]

/-- In a clean state an input that is no instruction is the step's refusal (R296). -/
theorem step_of_decode_error {s : State} {x : Input} {rest : List Input} {code : BitVec 8} (hclean : s.Clean)
    (hinput : s.input = x :: rest) (hdecode : decode x = .error (.unknownMicroOp code)) :
    step s = .refused (.unknownMicroOp code) := by
  simp [step, hclean.halted_eq_none, fetch, hinput, hdecode]

/-- R86 gives a meaning to the codes 1 to 3 only. -/
theorem decodeUop_of_unknown {code : BitVec 8} (h1 : code ≠ 1) (h2 : code ≠ 2) (h3 : code ≠ 3) (a : LinAddr)
    (p : List Byte) : decodeUop code a p = .error (.unknownMicroOp code) := by
  unfold decodeUop
  split
  case h_1 h => exact absurd (BitVec.eq_of_toNat_eq h) h1
  case h_2 h => exact absurd (BitVec.eq_of_toNat_eq h) h2
  case h_3 h => exact absurd (BitVec.eq_of_toNat_eq h) h3
  case h_4 => rfl

/-- With no symbol in flight TX_DONE is no input (R297). -/
theorem exec_txDone_of_not_inflight {s : State} (h : s.t.txInflight = false) :
    exec .txDone s = .refused .txDoneNotEnabled :=
  if_neg (by simp [h])

/-- Settles O6, by what the step finds: a fault, the mark, no input, no instruction; and TX_DONE's own check. -/
theorem stepWithNothingToRun : Obligations.StepWithNothingToRun :=
  ⟨fun _ _ _ hfaults => step_of_fault hfaults,
    fun _ _ hfaults hrefused => step_of_refused hfaults hrefused,
    fun _ hclean hinput => step_of_no_input hclean hinput,
    fun _ _ a p _ hclean hinput h1 h2 h3 =>
      step_of_decode_error hclean hinput (decodeUop_of_unknown h1 h2 h3 a p),
    fun _ h => exec_txDone_of_not_inflight h⟩

/-! ### Refused requests -/

/-- The command answers OK, or it answers from the state it found, having written nothing (R294). -/
def OkOrUnchanged (s : State) (i : Instr) : Prop :=
  (∃ v u, exec i s = answer .ok v u) ∨ ∃ c v, exec i s = answer c v s

theorem okOrUnchanged_startDiscovery (s : State) : OkOrUnchanged s .startDiscovery := by
  rcases execStartDiscovery_cases s with ⟨-, h⟩ | ⟨-, -, h⟩ | ⟨-, -, h⟩
  · exact .inr ⟨_, _, h⟩
  · exact .inr ⟨_, _, h⟩
  · exact .inl ⟨_, _, h⟩

theorem okOrUnchanged_requestPosition (p : Pos) (s : State) : OkOrUnchanged s (.requestPosition p) := by
  have h : exec (.requestPosition p) s = _ := execRequestPosition_eq p s
  rw [OkOrUnchanged, h]
  cases moveGuard s with
  | some c => exact .inr ⟨c, 0, rfl⟩
  | none =>
    cases targetGuard p s with
    | some c => exact .inr ⟨c, 0, rfl⟩
    | none => exact .inl ⟨0, _, rfl⟩

theorem okOrUnchanged_requestCalibration (s : State) : OkOrUnchanged s .requestCalibration := by
  have h : exec .requestCalibration s = _ := execRequestCalibration_eq s
  rw [OkOrUnchanged, h]
  cases moveGuard s with
  | some c => exact .inr ⟨c, 0, rfl⟩
  | none => exact .inl ⟨0, _, rfl⟩

/-- Three commands can be refused, the reserved opcodes always are, and the others answer OK. -/
theorem okOrUnchanged_of_isCommand {i : Instr} (h : Claims.isCommand i) (s : State) : OkOrUnchanged s i := by
  cases i with
  | startDiscovery => exact okOrUnchanged_startDiscovery s
  | requestPosition p => exact okOrUnchanged_requestPosition p s
  | requestCalibration => exact okOrUnchanged_requestCalibration s
  | reservedOpcode00 | reservedOpcode0F | reservedOpcode13 | reservedOpcode14 | reservedOpcode18
  | reservedOpcode20 | reservedOpcode40 | reservedOpcode80 => exact .inr ⟨.invalidData, 0, rfl⟩
  | init | getBusy | getMode | getDrift | getPosition | getLowerLimit | getUpperLimit | getMotorState
  | getMotorPosition | getMotorLowerLimit | getMotorUpperLimit | getMotorAddress | getMotorCapability
  | requestHalt => exact .inl ⟨_, _, rfl⟩
  | tick | txDone | rxByte | reset | reservedEvent0 | reservedEvent4 | reservedEvent8 | reservedEventC
  | reservedEventE | tWrite | tRead | tGetRx => cases h

/-- Settles O22: a result code other than zero is not OK's, so the command has answered from the state it
found. -/
theorem refusedRequestsChangeNothing : Obligations.RefusedRequestsChangeNothing := by
  intro i s t r hcommand hexec hresp hcode
  rcases okOrUnchanged_of_isCommand hcommand s with ⟨v, u, h⟩ | ⟨c, v, h⟩ <;> rw [hexec] at h <;> cases h
  · cases hresp
    exact absurd (respWord_code .ok v) hcode
  · rw [← hresp]
    rfl

/-! ### Leaving Rescue -/

/-- The desk is in Rescue. -/
def InRescue (s : State) : Prop := s.desk.mode = .operation .rescue

theorem InRescue.ofTransport {s t : State} (h : InRescue s) (ht : OnlyTransport s t) : InRescue t := by
  rw [ht.rest]; exact h

/-- A reading leaves the mode alone or enters Rescue (R205, R206). -/
theorem InRescue.ofProcess {s : State} (h : InRescue s) (u : Fin 2) (r : List Byte) :
    InRescue (process u r s) := by
  rcases process_cases u r s with hp | ⟨-, -, -, hp⟩ <;> rw [hp]
  · exact h
  · rfl

/-- Only slot 9 runs the desk state machine; no other slot leaves Rescue (R200 to R211). -/
theorem inRescue_slotAction {k : Nat} (hk : k ≠ 9) (m : OMode) {s : State} (h : InRescue s) :
    InRescue (slotAction k m s).result := by
  have collected := h.ofTransport (.ofGetRx s)
  unfold slotAction
  split
  case h_1 =>
    have busy : InRescue (s.withDesk { s.desk with busy := true }) := h
    exact busy.ofTransport (.ofWrite _ _ _)
  case h_2 => exact h.ofTransport (.ofRead _ s)
  case h_3 => exact (collected.ofProcess _ _).ofTransport (.ofRead _ _)
  case h_4 => exact collected.ofProcess _ _
  case h_5 => exact h
  case h_6 => exact absurd rfl hk
  case h_7 => exact h.ofTransport (.ofWrite _ _ s)
  case h_8 => exact h
  case h_9 => exact h

theorem inRescue_operationStep {s : State} (hslot : s.op.slot ≠ 9) (m : OMode) (h : InRescue s) :
    InRescue (operationStep m s).result := by
  have action := inRescue_slotAction (fun hk => hslot (BitVec.eq_of_toNat_eq hk)) m h
  rcases operationStep_result m s with he | he <;> rw [he] <;> exact action

/-- A TICK leaves Rescue at slot 9 of the last rescue-tick only (R222, R301). -/
theorem slot_and_rescueT_of_tick_leaves {s t : State} (hcfg : s.cfg.tableValues = true) (hs : InRescue s)
    (h : exec .tick s = .next t) (ht : ¬ InRescue t) : s.op.slot = 9 ∧ s.op.rescueT = 22 := by
  have hslot : s.op.slot = 9 := by
    by_contra hne
    rw [exec_tick_of_operation hs] at h
    cases h
    exact ht (inRescue_operationStep hne .rescue hs)
  refine ⟨hslot, ?_⟩
  by_contra hne
  obtain ⟨-, -, -, -, -, -, -, -, -, hlen, -⟩ := tableValues_fields hcfg
  rw [exec_tick_at_slot9 ⟨hcfg, hs, hslot⟩, dsmStep_rescue_of_ne hs (by rw [hlen]; bv_omega)] at h
  cases h
  exact ht hs

/-- A START_DISCOVERY that changes the mode has found the desk not busy (R251). -/
theorem busy_of_startDiscovery_mode_ne {s t : State} (h : exec .startDiscovery s = .next t)
    (hmode : t.desk.mode ≠ s.desk.mode) : s.desk.busy = false := by
  have hexec : execStartDiscovery s = .next t := h
  rcases execStartDiscovery_cases s with ⟨-, he⟩ | ⟨-, -, he⟩ | ⟨-, hbusy, -⟩
  · exact absurd (onlyRequest_answer (he.symm.trans hexec)).mode hmode
  · exact absurd (onlyRequest_answer (he.symm.trans hexec)).mode hmode
  · exact hbusy

/-- Settles O17: only the mode's four writers can leave Rescue, START_DISCOVERY only while not busy, and a TICK
only with R222's return. -/
theorem rescueExit : Obligations.RescueExit := by
  intro i s t hcfg hexec hs ht
  have hmode : t.desk.mode ≠ s.desk.mode := hs ▸ ht
  rcases modeWriters i s t hexec hmode with rfl | rfl | rfl | hinit
  · obtain ⟨hslot, hlast⟩ := slot_and_rescueT_of_tick_leaves hcfg hs hexec ht
    have ⟨_, returns⟩ := deskRescueResult s ⟨hcfg, hs, hslot⟩
    rw [returns hlast] at hexec
    cases hexec
    exact .inr (.inr (.inr ⟨rfl, hslot, hlast, rfl, rfl⟩))
  · exact .inr (.inl rfl)
  · exact .inr (.inr (.inl ⟨rfl, busy_of_startDiscovery_mode_ne hexec hmode⟩))
  · exact .inl hinit

end Sys2Proof.Machine
end

section
/-! PROOFS. RESET (70_reset_and_hazards.md R320): the registers at R51's values, and what stands. -/

namespace Sys2Proof.Machine

/-- RESET is the register reset that INIT begins with (R252), with no write after it: the bus state is `Idle`
and a symbol in flight is abandoned (R320). -/
theorem exec_reset (s : State) : exec .reset s = .next (resetRegisters s) := rfl

theorem keepsHistory_resetRegisters (s : State) : Claims.KeepsHistory s (resetRegisters s) :=
  ⟨rfl, rfl, rfl, rfl⟩

/-- Settles O24: RESET leaves the reset registers, the transport's among them, and the histories stand. -/
theorem resetResult : Obligations.ResetResult := by
  intro s
  have htransport : Claims.TransportCleared .idle false (resetRegisters s).t := by
    rw [resetRegisters_eq]
    exact transportCleared_atReset .idle false
  exact ⟨resetRegisters s, exec_reset s, cleared_resetRegisters s, htransport, keepsHistory_resetRegisters s⟩

end Sys2Proof.Machine
end
